-- ==== Sys2Proof/Word.lean ====
section
/-! DEFINITION. The word types of the one-wire protocol engine (00_scope.md R7, R9). -/

namespace Sys2Proof

/-- Eight bits: ARG, SHREG, RDATA, LO, HI and the bytes on the wire (ARG_W and BYTE_BITS, R6, R7). -/
abbrev Byte := BitVec 8

/-- The operation code OP, three bits (OP_W, R7). -/
abbrev OpCode := BitVec 3

/-- The command word CMD[10:0] of format CMD11 (30_encoding.md R80). -/
abbrev CommandWord := BitVec 11

/-- The unsigned magnitude MAG16 (10_state.md R25). -/
abbrev Half := BitVec 16

/-- The result register TEMP, TEMP_W = 32 bits, two's complement (10_state.md R26). -/
abbrev TempWord := BitVec 32

end Sys2Proof
end

