-- ==== Sys2Proof/Config.lean ====
section
/-! DEFINITION. The fixed parameters of 00_scope.md R6, the open parameters of R7 and the free line level of
10_state.md R40. Times are nominal microseconds. -/

namespace Sys2Proof.Config

/-- T_RSTL: the reset pulse, line driven low (R6). -/
@[simp] abbrev tRstl : Nat := 750
/-- T_RSTREC: delay after releasing the reset pulse (R6, 90_conflicts.md C1). -/
@[simp] abbrev tRstrec : Nat := 15
/-- N_PA: most polls of presence phase A (R6). -/
@[simp] abbrev nPa : Nat := 200
/-- N_PB: most polls of presence phase B (R6). -/
@[simp] abbrev nPb : Nat := 240
/-- T_POLL: delay between two polls (R6). -/
@[simp] abbrev tPoll : Nat := 1
/-- T_RDL: read slot, low pulse (R6). -/
@[simp] abbrev tRdl : Nat := 2
/-- T_RDS: read slot, release to sample (R6). -/
@[simp] abbrev tRds : Nat := 12
/-- T_RDPAD: read slot, pad after the sample (R6, 92_eei_decisions.md D7). -/
@[simp] abbrev tRdpad : Nat := 50
/-- T_W1L: write-1 slot, low pulse (R6). -/
@[simp] abbrev tW1l : Nat := 2
/-- T_W1H: write-1 slot, released remainder (R6). -/
@[simp] abbrev tW1h : Nat := 60
/-- T_W0L: write-0 slot, low pulse (R6). -/
@[simp] abbrev tW0l : Nat := 60
/-- T_W0H: write-0 slot, released remainder (R6). -/
@[simp] abbrev tW0h : Nat := 2

/-- CMD_SKIP_ROM (R6, R91). -/
@[simp] abbrev cmdSkipRom : Byte := 0xCC
/-- CMD_CONVERT_T (R6, R91). -/
@[simp] abbrev cmdConvertT : Byte := 0x44
/-- CMD_READ_SP (R6, R91). -/
@[simp] abbrev cmdReadSp : Byte := 0xBE

/-- NEG_THRESHOLD: the decode is negative iff HI is above it, unsigned (R6). -/
@[simp] abbrev negThreshold : Byte := 7
/-- BYTE_BITS: bits of a byte transaction (R6). -/
@[simp] abbrev byteBits : Nat := 8

/-- The level the environment answers to the k-th `Sample()` of a run whose listed answers are used up: an
unconstrained draw (10_state.md R40; 93_implementation_defined.md U10; log 3). No body: no proof can see it. -/
opaque lineLevel : Nat → Bool

/-- TICK_TOL, the relative error of the real microsecond tick: OPEN (R7, 92_eei_decisions.md D5; log 14). -/
opaque tickTol : Rat

/-- T_CONV, the microseconds a host must wait for a conversion: OPEN (R7, 92_eei_decisions.md D19; log 15). -/
opaque tConv : Nat

/-- The two kinds of hardware reset input (R7). -/
inductive ResetKind
  | synchronous
  | asynchronous
  deriving DecidableEq, Repr, Inhabited

/-- RESET_KIND: OPEN (R7, 92_eei_decisions.md D13). No clause of the model depends on it: a reset lands between
two steps in either case (log 12). -/
opaque resetKind : ResetKind

end Sys2Proof.Config
end

