-- ==== Sys2Proof/Syntax.lean ====
section
/-! DEFINITION. The instructions: one constructor per row of spec/opcode_table.json. -/

namespace Sys2Proof

/-- What the engine can be told to do. The first eight are the public operations, commanded by the host in CMD11
words (30_encoding.md R81); `arg` is CMD[7:0], the byte of WriteByte and ignored by the other seven (R82). The last
three are the command bytes the command sequencer sends to the device, rows of format WIRE8 (R91, R92). -/
inductive Instr
  | opInitialize (arg : Byte)
  | opReset (arg : Byte)
  | opCheckPresence (arg : Byte)
  | opReadBit (arg : Byte)
  | opReadByte (arg : Byte)
  | opWriteByte (arg : Byte)
  | opStartConversion (arg : Byte)
  | opGetTemperature (arg : Byte)
  | wireSkipRom
  | wireConvertT
  | wireReadScratchpad
  deriving DecidableEq, Repr

/-- An encoded instruction: a host command word or a byte for the wire (the two formats of opcode_table.json). -/
inductive CodeWord
  | cmd11 (w : CommandWord)
  | wire8 (b : Byte)
  deriving DecidableEq, Repr

end Sys2Proof
end

