-- ==== Sys2Proof/WellFormed.lean ====
section
/-! DEFINITION. Which instructions and which numbers are well formed. -/

namespace Sys2Proof

/-- Every instruction is well formed: ARG takes any of its 256 values in every operation and there is no illegal,
reserved or hint encoding (30_encoding.md R82, R83). -/
def Instr.wellFormed : Instr → Bool
  | .opInitialize _ => true
  | .opReset _ => true
  | .opCheckPresence _ => true
  | .opReadBit _ => true
  | .opReadByte _ => true
  | .opWriteByte _ => true
  | .opStartConversion _ => true
  | .opGetTemperature _ => true
  | .wireSkipRom => true
  | .wireConvertT => true
  | .wireReadScratchpad => true

/-- The commands an assembler emits (30_encoding.md R84): the seven mnemonics without an operand carry ARG = 0x00,
WriteByte carries any byte; a wire byte is no line of a host program. -/
def Instr.assembled : Instr → Bool
  | .opInitialize a => a == 0
  | .opReset a => a == 0
  | .opCheckPresence a => a == 0
  | .opReadBit a => a == 0
  | .opReadByte a => a == 0
  | .opWriteByte _ => true
  | .opStartConversion a => a == 0
  | .opGetTemperature a => a == 0
  | .wireSkipRom => false
  | .wireConvertT => false
  | .wireReadScratchpad => false

/-- The number `w` fits the format laid out in `nbits` bits: a command word is 11 bits and its bytes' five high
bits are zero (R80; log 5), a wire byte is 8 bits (R92). -/
def numberFits (nbits w : Nat) : Bool :=
  if nbits ≤ 8 then w < 2 ^ 8 else w < 2 ^ 11

end Sys2Proof
end

