-- ==== Sys2Proof/Decode.lean ====
section
/-! DEFINITION. The decoder, total on any bytes and rejecting by name, the encoder after it, and the opcode table. -/

namespace Sys2Proof

/-- Why bytes are no instruction. A command word is never among them: all 2048 decode (30_encoding.md R83). -/
inductive DecodeError
  /-- The byte is none of the three command bytes the engine sends (R91). -/
  | notACommandByte (b : Byte)
  /-- The two bytes hold a number of more than 11 bits (R80; log 5). -/
  | widerThanACommandWord (hi : Byte)
  /-- Neither one byte (WIRE8) nor two (CMD11). -/
  | notOneOrTwoBytes (n : Nat)
  deriving DecidableEq, Repr

/-- CMD[10:8] (R80). -/
def opOf (w : CommandWord) : OpCode := w.extractLsb' 8 3

/-- CMD[7:0] (R80). -/
def argOf (w : CommandWord) : Byte := w.extractLsb' 0 8

/-- The operation of a command word (R81): all eight codes are assigned, so the last arm is code 7. -/
def decodeCommand (w : CommandWord) : Instr :=
  match (opOf w).toNat with
  | 0 => .opInitialize (argOf w)
  | 1 => .opReset (argOf w)
  | 2 => .opCheckPresence (argOf w)
  | 3 => .opReadBit (argOf w)
  | 4 => .opReadByte (argOf w)
  | 5 => .opWriteByte (argOf w)
  | 6 => .opStartConversion (argOf w)
  | _ => .opGetTemperature (argOf w)

/-- The wire command of a byte (R91). -/
def decodeWire (b : Byte) : Except DecodeError Instr :=
  if b = Config.cmdSkipRom then .ok .wireSkipRom
  else if b = Config.cmdConvertT then .ok .wireConvertT
  else if b = Config.cmdReadSp then .ok .wireReadScratchpad
  else .error (.notACommandByte b)

/-- The decoder on an encoded instruction. -/
def decode : CodeWord → Except DecodeError Instr
  | .cmd11 w => .ok (decodeCommand w)
  | .wire8 b => decodeWire b

/-- The decoder on bytes: one byte is a wire byte; two bytes are a command word, low byte first (log 5). -/
def decodeBytes : List Byte → Except DecodeError Instr
  | [b] => decode (.wire8 b)
  | [lo, hi] =>
      if hi < 8 then decode (.cmd11 (hi.extractLsb' 0 3 ++ lo)) else .error (.widerThanACommandWord hi)
  | bs => .error (.notOneOrTwoBytes bs.length)

/-- The bytes of the number `w` that the opcode table numbers from bit 0, `nbits` bits laid out in whole bytes. -/
def tableBytes (nbits w : Nat) : List Byte :=
  if nbits ≤ 8 then [BitVec.ofNat 8 w] else [BitVec.ofNat 8 w, BitVec.ofNat 8 (w / 256)]

/-- The instruction the decoder reads from a row's word; none where it refuses or `w` has more bits than it can. -/
def decodeTableWord (nbits w : Nat) : Option Instr :=
  if numberFits nbits w then (decodeBytes (tableBytes nbits w)).toOption else none

/-! ### The encoder -/

/-- A command word from its two fields (R80). -/
def commandWord (op : OpCode) (arg : Byte) : CommandWord := op ++ arg

/-- The word of an instruction (R81, R91). -/
def encode : Instr → CodeWord
  | .opInitialize a => .cmd11 (commandWord 0 a)
  | .opReset a => .cmd11 (commandWord 1 a)
  | .opCheckPresence a => .cmd11 (commandWord 2 a)
  | .opReadBit a => .cmd11 (commandWord 3 a)
  | .opReadByte a => .cmd11 (commandWord 4 a)
  | .opWriteByte a => .cmd11 (commandWord 5 a)
  | .opStartConversion a => .cmd11 (commandWord 6 a)
  | .opGetTemperature a => .cmd11 (commandWord 7 a)
  | .wireSkipRom => .wire8 Config.cmdSkipRom
  | .wireConvertT => .wire8 Config.cmdConvertT
  | .wireReadScratchpad => .wire8 Config.cmdReadSp

/-- The bytes of a code word, low byte first (log 5). -/
def codeBytes : CodeWord → List Byte
  | .cmd11 w => [argOf w, (opOf w).setWidth 8]
  | .wire8 b => [b]

/-- The bytes of an instruction. -/
def encodeBytes (i : Instr) : List Byte := codeBytes (encode i)

/-- The length in whole bytes' bits and the number of a code word, as the opcode table numbers its bits. -/
def codeNumber : CodeWord → Nat × Nat
  | .cmd11 w => (16, w.toNat)
  | .wire8 b => (8, b.toNat)

/-- The command word of an assembler line, a mnemonic and perhaps an operand (30_encoding.md R84): only WriteByte takes
an operand, the other seven assemble with ARG = 0x00. -/
def assemble (mnemonic : String) (operand : Option Byte) : Option CommandWord :=
  match operand with
  | some b => if mnemonic = "WriteByte" then some (commandWord 5 b) else none
  | none =>
    if mnemonic = "Initialize" then some 0x000
    else if mnemonic = "Reset" then some 0x100
    else if mnemonic = "CheckPresence" then some 0x200
    else if mnemonic = "ReadBit" then some 0x300
    else if mnemonic = "ReadByte" then some 0x400
    else if mnemonic = "StartConversion" then some 0x600
    else if mnemonic = "GetTemperature" then some 0x700
    else none

/-! ### The opcode table -/

/-- A row of spec/opcode_table.json: its mnemonic, the width of its format, match and mask. -/
structure OpcodeRow where
  mnemonic : String
  width : Nat
  value : Nat
  mask : Nat
  deriving DecidableEq, Repr

/-- The eleven rows (R81, R91, R92). -/
def opcodeRows : List OpcodeRow :=
  [ ⟨"Initialize", 11, 0x000, 0x700⟩, ⟨"Reset", 11, 0x100, 0x700⟩, ⟨"CheckPresence", 11, 0x200, 0x700⟩,
    ⟨"ReadBit", 11, 0x300, 0x700⟩, ⟨"ReadByte", 11, 0x400, 0x700⟩, ⟨"WriteByte", 11, 0x500, 0x700⟩,
    ⟨"StartConversion", 11, 0x600, 0x700⟩, ⟨"GetTemperature", 11, 0x700, 0x700⟩ ] ++
  [ ⟨"SKIP_ROM", 8, 0xCC, 0xFF⟩, ⟨"CONVERT_T", 8, 0x44, 0xFF⟩, ⟨"READ_SCRATCHPAD", 8, 0xBE, 0xFF⟩ ]

/-- The code word has the row's width and the row's bits under its mask. -/
def OpcodeRow.covers (r : OpcodeRow) : CodeWord → Bool
  | .cmd11 w => r.width == 11 && (w.toNat &&& r.mask) == r.value
  | .wire8 b => r.width == 8 && (b.toNat &&& r.mask) == r.value

/-- The mnemonic of an instruction's row. -/
def Instr.mnemonic : Instr → String
  | .opInitialize _ => "Initialize"
  | .opReset _ => "Reset"
  | .opCheckPresence _ => "CheckPresence"
  | .opReadBit _ => "ReadBit"
  | .opReadByte _ => "ReadByte"
  | .opWriteByte _ => "WriteByte"
  | .opStartConversion _ => "StartConversion"
  | .opGetTemperature _ => "GetTemperature"
  | .wireSkipRom => "SKIP_ROM"
  | .wireConvertT => "CONVERT_T"
  | .wireReadScratchpad => "READ_SCRATCHPAD"

end Sys2Proof
end

