-- ==== Sys2Proof/Machine/State.lean ====
section
/-! DEFINITION. The state of the engine, its inputs and what a model observes of it; why a step can stop; reset. -/

namespace Sys2Proof.Machine

/-- A trace event (00_scope.md R11). -/
inductive Event
  /-- `DriveLow()`. -/
  | L
  /-- `Release()`. -/
  | Z
  /-- `Delay(n)`, n nominal microseconds have passed. -/
  | D (n : Nat)
  /-- `Sample()` answered `b`; true is high. -/
  | S (b : Bool)
  deriving DecidableEq, Repr

/-- CS, the command-sequencer state (10_state.md R32). -/
inductive CsState
  | idle | rp1 | skip1 | conv | rp2 | skip2 | rdsp | rdlo | rdhi | dec | prim | init
  deriving DecidableEq, Repr

/-- RP, the reset-presence state machine (R33). -/
inductive RpState
  | idle | rstLow | rstRec | prA | prB
  deriving DecidableEq, Repr

/-- BS, the bit-slot timing sequencer (R34). -/
inductive BsState
  | idle | w1Low | w1Rec | w0Low | w0Rec | rLow | rWait | rPad
  deriving DecidableEq, Repr

/-- BY, the byte-transaction controller (R35). -/
inductive ByState
  | idle | wr | rd
  deriving DecidableEq, Repr

/-- The six data registers (R20 to R26). -/
structure Regs where
  shreg : Byte
  rdata : Byte
  lo : Byte
  hi : Byte
  mag16 : Half
  temp : TempWord
  deriving DecidableEq, Repr

/-- The four flags (R27 to R30); `absent` true is the spec's 1, no device. -/
structure Flags where
  busy : Bool
  absent : Bool
  sign : Bool
  outLow : Bool
  deriving DecidableEq, Repr

/-- The sequencer, the engine's program counter (R31 to R36). `slotBit` is the `b` of `ReadSlot()` (42_bit_slots.md
R150) while the slot's pad runs: the pseudocode holds it there and no register of the spec does (log 8). -/
structure Sequencer where
  opr : OpCode
  cs : CsState
  rp : RpState
  bs : BsState
  byt : ByState
  bitcnt : BitVec 4
  poll : BitVec 8
  dly : BitVec 10
  slotBit : Option Bool
  deriving DecidableEq, Repr

/-- What the host presents on its ports in one step (R38), and `gap`, the microseconds it lets pass when the engine
is idle and nothing is presented (`Wait n`, 30_encoding.md R84). -/
structure HostInput where
  rst : Bool := false
  cmdValid : Bool := false
  cmdOp : OpCode := 0
  cmdArg : Byte := 0
  gap : Nat := 0
  deriving DecidableEq, Repr

/-- How finely the host agent watches the engine: what one step of the model is (log 1). -/
inductive View
  /-- A command runs from acceptance to completion in one step (20_memory.md R67: indivisible for the host). -/
  | byOperation
  /-- Acceptance is a step, then each state of CS is a step (44_command_sequences.md R195). -/
  | byPhase
  /-- Acceptance is a step, then each micro-operation and each microsecond of a delay is a step (R36). -/
  | byMicroOperation
  deriving DecidableEq, Repr

/-- The inputs: the host's next port values, one entry a step (none left: a quiet host), and the line's next
answers, one a `Sample()` (none left: free levels, numbered by `draws`). -/
structure Env where
  view : View
  host : List HostInput
  dqIn : List Bool
  draws : Nat
  deriving DecidableEq, Repr

/-- What a model records (10_state.md R47) and the port `done` of the last step (R39): the trace, newest event
first, and the nominal microseconds that have passed. -/
structure Obs where
  log : List Event
  now : Nat
  done : Bool
  deriving DecidableEq, Repr

/-- The machine: the engine's registers, flags and sequencer, its inputs, and what is observed. -/
structure State where
  regs : Regs
  flags : Flags
  seq : Sequencer
  env : Env
  obs : Obs
  deriving DecidableEq, Repr

/-- Faults: none. The engine has no fault and no trap; a presence timeout is an ordinary state with ABSENT = 1
(60_exceptions.md R230, R237, R246). -/
inductive Fault
  deriving DecidableEq, Repr

/-- Why a step has no meaning. -/
inductive Refusal
  /-- Raised by exec's arm of an instruction that has no meaning yet; safe. No arm raises it. -/
  | notModelled (mnemonic : String)
  /-- Raised by step where the decoder refuses what is fetched; safe. No state raises it: every command word decodes
  (30_encoding.md R83) and the sequencer sends only the three bytes of R91. -/
  | undecodable (reason : DecodeError)
  deriving DecidableEq, Repr

/-- After hardware reset (10_state.md R46): all 0, idle, line released, ABSENT = 1. The inputs and observations are
the model's own: nothing presented, no answer listed, nothing recorded (logs 1 to 3 and 12). -/
def State.reset : State where
  regs := { shreg := 0, rdata := 0, lo := 0, hi := 0, mag16 := 0, temp := 0 }
  flags := { busy := false, absent := true, sign := false, outLow := false }
  seq := { opr := 0, cs := .idle, rp := .idle, bs := .idle, byt := .idle, bitcnt := 0, poll := 0, dly := 0,
           slotBit := none }
  env := { view := .byOperation, host := [], dqIn := [], draws := 0 }
  obs := { log := [], now := 0, done := false }

end Sys2Proof.Machine
end

