-- ==== Sys2Proof/Machine/Operands.lean ====
section
/-! DEFINITION. Where data comes from: the argument byte, the bits of a byte, the line's answers, and the numeric
codes of the sequencer's states. -/

namespace Sys2Proof.Machine

/-- SHREG after acceptance: WriteByte (code 5) loads ARG as it is, no other operation looks at ARG
(30_encoding.md R82, 10_state.md R43). -/
def loadOperand (op : OpCode) (arg shreg : Byte) : Byte := if op = 5 then arg else shreg

/-- The bit a write slot sends: SHREG[0] (10_state.md R21). -/
def firstBit (v : Byte) : Bool := v.getLsbD 0

/-- `v >> 1`, a zero enters at bit 7 (R21). -/
def shiftOut (v : Byte) : Byte := v >>> 1

/-- `{b, v[7:1]}`: the new bit enters at bit 7 (R21, 43_byte_transactions.md R170). -/
def shiftIn (b : Bool) (v : Byte) : Byte := BitVec.ofBool b ++ v.extractLsb' 1 7

/-- `zext_8(b)`, the result of ReadBit (30_encoding.md R96). -/
def zextBit (b : Bool) : Byte := (BitVec.ofBool b).setWidth 8

/-- The answer the k-th next `Sample()` will get, counted from 0: the listed answers, then free levels
(00_scope.md R11, 10_state.md R40). -/
def Env.answer (e : Env) (k : Nat) : Bool := (e.dqIn[k]?).getD (Config.lineLevel (e.draws + k))

/-- The inputs after `k` samples. -/
def Env.consume (e : Env) (k : Nat) : Env := { e with dqIn := e.dqIn.drop k, draws := e.draws + k }

/-- What the host presents in this step: the next entry, or nothing when none is left (log 2). -/
def Env.present (e : Env) : HostInput := e.host.headD {}

/-- The command word on the ports: CMD[10:8] is cmd_op, CMD[7:0] is cmd_arg (R38, 30_encoding.md R80). -/
def HostInput.word (h : HostInput) : CommandWord := commandWord h.cmdOp h.cmdArg

/-- The 4-bit code of CS (R32). -/
def CsState.code : CsState → BitVec 4
  | .idle => 0 | .rp1 => 1 | .skip1 => 2 | .conv => 3 | .rp2 => 4 | .skip2 => 5
  | .rdsp => 6 | .rdlo => 7 | .rdhi => 8 | .dec => 9 | .prim => 10 | .init => 11

/-- The 3-bit code of RP (R33). -/
def RpState.code : RpState → BitVec 3
  | .idle => 0 | .rstLow => 1 | .rstRec => 2 | .prA => 3 | .prB => 4

/-- The 3-bit code of BS (R34). -/
def BsState.code : BsState → BitVec 3
  | .idle => 0 | .w1Low => 1 | .w1Rec => 2 | .w0Low => 3 | .w0Rec => 4 | .rLow => 5 | .rWait => 6 | .rPad => 7

/-- The 2-bit code of BY (R35). -/
def ByState.code : ByState → BitVec 2
  | .idle => 0 | .wr => 1 | .rd => 2

end Sys2Proof.Machine
end

