-- ==== Sys2Proof/Machine/Flags.lean ====
section
/-! DEFINITION. The flag and number computations: SIGN, the magnitude, the scale and the negation of the temperature
decoder (45_temperature_decode.md R210 to R213, R219), and ABSENT. -/

namespace Sys2Proof.Machine

/-- SIGN: 1 iff HI >u 7 (R210). -/
def decodeSign (hi : Byte) : Bool := BitVec.ult Config.negThreshold hi

/-- MAG16: the two bytes, both complemented on the negative path, no one added (R210, R211). -/
def decodeMag16 (hi lo : Byte) : Half := if decodeSign hi then ~~~hi ++ ~~~lo else hi ++ lo

/-- `(MAG16 * 5) >> 3` with the product in 19 bits: truncation (R212, 92_eei_decisions.md D9; log 19). -/
def decodeScaled (mag : Half) : BitVec 19 := (mag.setWidth 19 * 5) >>> 3

/-- TEMP: the scaled magnitude, negated in 32 bits on the negative path (R213). -/
def decodeTempWord (hi lo : Byte) : TempWord :=
  let mag : TempWord := (decodeScaled (decodeMag16 hi lo)).setWidth 32
  if decodeSign hi then -mag else mag

/-- ABSENT as a returned number: 0 present, 1 absent (30_encoding.md R95). -/
def absentBit (absent : Bool) : Nat := if absent then 1 else 0

end Sys2Proof.Machine
end

