-- ==== Sys2Proof/Machine/Ops.lean ====
section
/-! DEFINITION. The named operations every sequence is built from: the four micro-operations, the register writes,
the one error (presence timeout), acceptance, completion and hardware reset. The engine has no memory, no trap entry
and no trap return (20_memory.md R60, 60_exceptions.md R237, R238). -/

namespace Sys2Proof.Machine

/-! ### The micro-operations (00_scope.md R10, 40_timing_and_line_primitives.md) -/

/-- Record a trace event (R11). -/
def record (e : Event) (s : State) : State := { s with obs.log := e :: s.obs.log }

/-- `DriveLow()`: OUT_LOW <- 1, event `L` (R113). -/
def driveLow (s : State) : State := record .L { s with flags.outLow := true }

/-- `Release()`: OUT_LOW <- 0, event `Z` (R114). -/
def release (s : State) : State := record .Z { s with flags.outLow := false }

/-- `Delay(n)` as one action that adds n to the elapsed time and leaves DLY counted down to 0, event `D(n)`; a delay
of 0 is no event (R10, R111, 10_state.md R36). -/
def delay (n : Nat) (s : State) : State :=
  if n = 0 then s
  else { s with seq.dly := 0, obs.now := s.obs.now + n, obs.log := .D n :: s.obs.log }

/-- The level the next `Sample()` returns (R115). -/
def lineLevel (s : State) : Bool := s.env.answer 0

/-- After that `Sample()`: the answer is used up, event `S(b)` (R115). -/
def sampled (s : State) : State := record (.S (lineLevel s)) { s with env := s.env.consume 1 }

/-! ### Register writes -/

/-- CS <- c. -/
def setCs (c : CsState) (s : State) : State := { s with seq.cs := c }
/-- RP <- r. -/
def setRp (r : RpState) (s : State) : State := { s with seq.rp := r }
/-- BS <- b. -/
def setBs (b : BsState) (s : State) : State := { s with seq.bs := b }
/-- BY <- b. -/
def setByt (b : ByState) (s : State) : State := { s with seq.byt := b }
/-- BITCNT <- n. -/
def setBitcnt (n : BitVec 4) (s : State) : State := { s with seq.bitcnt := n }
/-- BITCNT <- BITCNT + 1 (R35). -/
def countBit (s : State) : State := setBitcnt (s.seq.bitcnt + 1) s
/-- POLL <- n. -/
def setPoll (n : BitVec 8) (s : State) : State := { s with seq.poll := n }
/-- POLL <- POLL + 1 (R36). -/
def countPoll (s : State) : State := setPoll (s.seq.poll + 1) s
/-- DLY <- n: the start of a delay that is counted tick by tick (R36). -/
def loadDelay (n : Nat) (s : State) : State := { s with seq.dly := BitVec.ofNat 10 n }
/-- The read slot's bit is held, or dropped, over the pad (log 8). -/
def setSlotBit (b : Option Bool) (s : State) : State := { s with seq.slotBit := b }
/-- SHREG <- v. -/
def setShreg (v : Byte) (s : State) : State := { s with regs.shreg := v }
/-- RDATA <- v. -/
def setRdata (v : Byte) (s : State) : State := { s with regs.rdata := v }
/-- LO <- v. -/
def setLo (v : Byte) (s : State) : State := { s with regs.lo := v }
/-- HI <- v. -/
def setHi (v : Byte) (s : State) : State := { s with regs.hi := v }
/-- ABSENT <- b. -/
def setAbsent (b : Bool) (s : State) : State := { s with flags.absent := b }

/-! ### The presence status -/

/-- The poll ends with status `b`: ABSENT <- b, RP <- RP_IDLE, and POLL is cleared again (41_reset_presence.md R132;
60_exceptions.md R244; log 9). -/
def endPoll (b : Bool) (s : State) : State := s |> setAbsent b |> setRp .idle |> setPoll 0

/-- THE ONE ERROR, presence timeout of kind A or B: a returned bit, ABSENT <- 1, no state saved, no control transfer
(60_exceptions.md R230, R233, R237). -/
def presenceTimeout (s : State) : State := endPoll true s

/-- A presence pulse was seen: ABSENT <- 0 (41_reset_presence.md R132). -/
def presenceFound (s : State) : State := endPoll false s

/-! ### Acceptance, the command sequencer's chain, completion -/

/-- Where CS goes from IDLE: INIT, PRIM or RP1 by the operation code (10_state.md R32, row IDLE). -/
def csAfterAccept (op : OpCode) : CsState :=
  if op = 0 then .init else if op.toNat ≤ 5 then .prim else .rp1

/-- Acceptance (R43): OPR <- cmd_op, BUSY <- 1, SHREG <- cmd_arg for WriteByte, CS leaves IDLE. -/
def accept (op : OpCode) (arg : Byte) (s : State) : State :=
  { s with
    flags.busy := true
    regs.shreg := loadOperand op arg s.regs.shreg
    seq.opr := op
    seq.cs := csAfterAccept op
    obs.done := false }

/-- Completion (R43, R199): BUSY <- 0, CS <- IDLE, `done` is raised for this step. -/
def complete (s : State) : State := { s with flags.busy := false, seq.cs := .idle, obs.done := true }

/-- CS's state has finished: the column "next" of R32. At the end of CONV the operation code chooses (R200 b). -/
def advance (s : State) : State :=
  match s.seq.cs with
  | .idle => s
  | .rp1 => setCs .skip1 s
  | .skip1 => setCs .conv s
  | .conv => if s.seq.opr = 7 then setCs .rp2 s else complete s
  | .rp2 => setCs .skip2 s
  | .skip2 => setCs .rdsp s
  | .rdsp => setCs .rdlo s
  | .rdlo => setCs .rdhi s
  | .rdhi => setCs .dec s
  | .dec => complete s
  | .prim => complete s
  | .init => complete s

/-! ### The host's side of a step -/

/-- This step's host input is used up, and `done` falls unless this step raises it (R39; log 2). -/
def beginStep (s : State) : State := { s with env.host := s.env.host.tail, obs.done := false }

/-- Hardware reset (70_reset_and_hazards.md R260, R261): every register at its reset value, the line released, no
`done`; an operation in progress is abandoned. The inputs to come stay; observation starts anew (log 12). -/
def hardwareReset (s : State) : State := { State.reset with env := s.env }

/-- Nothing presented and the engine idle: the host lets `gap` microseconds pass (30_encoding.md R84). -/
def idleFor (gap : Nat) (s : State) : State := { s with obs.now := s.obs.now + gap }

/-! ### What is observed -/

/-- The trace, oldest event first (00_scope.md R11). -/
def State.trace (s : State) : List Event := s.obs.log.reverse

/-- The output ports (10_state.md R37, R39). -/
structure Ports where
  dqLow : Bool
  busy : Bool
  done : Bool
  absent : Bool
  rdata : Byte
  temp : TempWord
  deriving DecidableEq, Repr

/-- The values on the output ports: each equals its register, `done` is this step's (R37, R39). -/
def State.ports (s : State) : Ports where
  dqLow := s.flags.outLow
  busy := s.flags.busy
  done := s.obs.done
  absent := s.flags.absent
  rdata := s.regs.rdata
  temp := s.regs.temp

end Sys2Proof.Machine
end

