-- ==== Sys2Proof/Machine/BitSlots.lean ====
section
/-! DEFINITION. The bit time slots: `ReadSlot`, `WriteSlot(1)`, `WriteSlot(0)`, and the operation ReadBit
(42_bit_slots.md). -/

namespace Sys2Proof.Machine

/-- `WriteSlot(1)` (R152). -/
def writeSlot1 (s : State) : State :=
  s |> setBs .w1Low |> driveLow |> delay Config.tW1l |> setBs .w1Rec |> release |> delay Config.tW1h |> setBs .idle

/-- `WriteSlot(0)` (R153). -/
def writeSlot0 (s : State) : State :=
  s |> setBs .w0Low |> driveLow |> delay Config.tW0l |> setBs .w0Rec |> release |> delay Config.tW0h |> setBs .idle

/-- `WriteSlot(b)` (R154). -/
def writeSlot (b : Bool) (s : State) : State := if b then writeSlot1 s else writeSlot0 s

/-- `ReadSlot()` up to its `Sample()` (R150). -/
def readSlotOpen (s : State) : State :=
  s |> setBs .rLow |> driveLow |> delay Config.tRdl |> setBs .rWait |> release |> delay Config.tRds

/-- `ReadSlot()` from its `Sample()` on (R150). -/
def readSlotClose (s : State) : State := s |> sampled |> setBs .rPad |> delay Config.tRdpad |> setBs .idle

/-- `ReadSlot()`: the bit it returns and the state after it (R150). -/
def readSlot (s : State) : Bool × State := (lineLevel (readSlotOpen s), readSlotClose (readSlotOpen s))

/-- The primitive sequence of ReadBit: `b <- ReadSlot(); RDATA <- zext_8(b)` (R151). -/
def readBitSeq (s : State) : State := setRdata (zextBit (readSlot s).1) (readSlot s).2

/-- ReadBit, OP 3 (R151). -/
def execReadBit (arg : Byte) (s : State) : Host.Outcome State Fault Refusal :=
  .next (s |> accept 3 arg |> readBitSeq |> complete)

end Sys2Proof.Machine
end

