-- ==== Sys2Proof/Machine/Bytes.lean ====
section
/-! DEFINITION. The byte transactions: `ReadByteSeq`, `WriteByteSeq`, and the operations ReadByte and WriteByte
(43_byte_transactions.md). -/

namespace Sys2Proof.Machine

/-- One turn of `WriteByteSeq`'s loop: send SHREG[0], shift (R172). -/
def writeNextBit (s : State) : State :=
  s |> setShreg (shiftOut s.regs.shreg) |> writeSlot (firstBit s.regs.shreg) |> countBit

/-- `n` turns of the write loop. -/
def writeBits : Nat → State → State
  | 0, s => s
  | n + 1, s => writeBits n (writeNextBit s)

/-- `WriteByteSeq(v)` (R172). -/
def writeByteSeq (v : Byte) (s : State) : State :=
  s |> setShreg v |> setByt .wr |> setBitcnt 0 |> writeBits Config.byteBits |> setByt .idle

/-- One turn of `ReadByteSeq`'s loop: a read slot, its bit enters SHREG at bit 7 (R170). -/
def readNextBit (s : State) : State :=
  (readSlot s).2 |> setShreg (shiftIn (readSlot s).1 (readSlot s).2.regs.shreg) |> countBit

/-- `n` turns of the read loop. -/
def readBits : Nat → State → State
  | 0, s => s
  | n + 1, s => readBits n (readNextBit s)

/-- `ReadByteSeq()`; the byte it returns is SHREG (R170). -/
def readByteSeq (s : State) : State :=
  s |> setByt .rd |> setBitcnt 0 |> readBits Config.byteBits |> setByt .idle

/-- RDATA <- SHREG, the result of ReadByte (10_state.md R22). -/
def shregToRdata (s : State) : State := setRdata s.regs.shreg s
/-- LO <- SHREG (10_state.md R32, state RDLO). -/
def shregToLo (s : State) : State := setLo s.regs.shreg s
/-- HI <- SHREG (10_state.md R32, state RDHI). -/
def shregToHi (s : State) : State := setHi s.regs.shreg s

/-- ReadByte, OP 4 (R171). -/
def execReadByte (arg : Byte) (s : State) : Host.Outcome State Fault Refusal :=
  .next (s |> accept 4 arg |> readByteSeq |> shregToRdata |> complete)

/-- WriteByte, OP 5 (R173): acceptance has loaded SHREG with ARG. -/
def execWriteByte (arg : Byte) (s : State) : Host.Outcome State Fault Refusal :=
  .next (accept 5 arg s |> writeByteSeq (accept 5 arg s).regs.shreg |> complete)

end Sys2Proof.Machine
end

