-- ==== Sys2Proof/Machine/ResetPresence.lean ====
section
/-! DEFINITION. The reset pulse and presence detection: `ResetSeq`, `PresenceSeq`, and the operations Reset,
CheckPresence and Initialize (41_reset_presence.md). -/

namespace Sys2Proof.Machine

/-- `ResetSeq()` (R131). -/
def resetSeq (s : State) : State :=
  s |> setRp .rstLow |> driveLow |> delay Config.tRstl
    |> setRp .rstRec |> release |> delay Config.tRstrec |> setRp .idle

/-- Phase A begins: RP <- PR_A, POLL <- 0 (R132). -/
def enterPhaseA (s : State) : State := s |> setRp .prA |> setPoll 0

/-- Phase B begins: RP <- PR_B, POLL <- 0 (R132). -/
def enterPhaseB (s : State) : State := s |> setRp .prB |> setPoll 0

/-- Phase B with `n` polls left: wait for the line to return high; timeout kind B when none is left (R132). -/
def phaseB : Nat → State → State
  | 0, s => presenceTimeout s
  | n + 1, s =>
    if lineLevel s then presenceFound (sampled s)
    else phaseB n (s |> sampled |> delay Config.tPoll |> countPoll)

/-- Phase A with `n` polls left: wait for the line to go low; timeout kind A when none is left (R132). -/
def phaseA : Nat → State → State
  | 0, s => presenceTimeout s
  | n + 1, s =>
    if lineLevel s then phaseA n (s |> sampled |> delay Config.tPoll |> countPoll)
    else phaseB Config.nPb (s |> sampled |> enterPhaseB)

/-- `PresenceSeq()` (R132). Its returned bit is ABSENT. -/
def presenceSeq (s : State) : State := phaseA Config.nPa (enterPhaseA s)

/-- Reset, OP 1 (R133). -/
def execReset (arg : Byte) (s : State) : Host.Outcome State Fault Refusal :=
  .next (s |> accept 1 arg |> resetSeq |> complete)

/-- CheckPresence, OP 2 (R134). -/
def execCheckPresence (arg : Byte) (s : State) : Host.Outcome State Fault Refusal :=
  .next (s |> accept 2 arg |> presenceSeq |> complete)

/-- Initialize, OP 0 (R135). -/
def execInitialize (arg : Byte) (s : State) : Host.Outcome State Fault Refusal :=
  .next (s |> accept 0 arg |> release |> resetSeq |> presenceSeq |> complete)

end Sys2Proof.Machine
end

