-- ==== Sys2Proof/Machine/TempDecode.lean ====
section
/-! DEFINITION. `Decode()`, the fixed-point temperature decoder of CS state DEC (45_temperature_decode.md). -/

namespace Sys2Proof.Machine

/-- `Decode()` (R214): reads LO and HI, writes SIGN, MAG16 and TEMP, in zero nominal time. -/
def decodeTemp (s : State) : State :=
  { s with
    flags.sign := decodeSign s.regs.hi
    regs.mag16 := decodeMag16 s.regs.hi s.regs.lo
    regs.temp := decodeTempWord s.regs.hi s.regs.lo }

end Sys2Proof.Machine
end

