-- ==== Sys2Proof/Machine/Commands.lean ====
section
/-! DEFINITION. The command sequencer's operations StartConversion and GetTemperature, and the three command bytes it
sends (44_command_sequences.md). -/

namespace Sys2Proof.Machine

/-- `ResetPresence()` (R191): the poll's result goes to ABSENT and steers nothing (R197). -/
def resetPresence (s : State) : State := s |> resetSeq |> presenceSeq

/-- `StartConvSeq()` (R192). -/
def startConvSeq (s : State) : State :=
  s |> setCs .rp1 |> resetPresence
    |> setCs .skip1 |> writeByteSeq Config.cmdSkipRom
    |> setCs .conv |> writeByteSeq Config.cmdConvertT

/-- The read half of GetTemperature, states RP2 to RDHI (R194). -/
def readScratchpadSeq (s : State) : State :=
  s |> setCs .rp2 |> resetPresence
    |> setCs .skip2 |> writeByteSeq Config.cmdSkipRom
    |> setCs .rdsp |> writeByteSeq Config.cmdReadSp
    |> setCs .rdlo |> readByteSeq |> shregToLo
    |> setCs .rdhi |> readByteSeq |> shregToHi

/-- StartConversion, OP 6 (R193). -/
def execStartConversion (arg : Byte) (s : State) : Host.Outcome State Fault Refusal :=
  .next (s |> accept 6 arg |> startConvSeq |> complete)

/-- GetTemperature, OP 7 (R194). -/
def execGetTemperature (arg : Byte) (s : State) : Host.Outcome State Fault Refusal :=
  .next (s |> accept 7 arg |> startConvSeq |> readScratchpadSeq |> setCs .dec |> decodeTemp |> complete)

/-- SKIP_ROM, the byte 0xCC sent in states SKIP1 and SKIP2 (R91; log 6). -/
def execSkipRom (s : State) : Host.Outcome State Fault Refusal := .next (writeByteSeq Config.cmdSkipRom s)

/-- CONVERT_T, the byte 0x44 sent in state CONV (R91; log 6). -/
def execConvertT (s : State) : Host.Outcome State Fault Refusal := .next (writeByteSeq Config.cmdConvertT s)

/-- READ_SCRATCHPAD, the byte 0xBE sent in state RDSP (R91; log 6). -/
def execReadScratchpad (s : State) : Host.Outcome State Fault Refusal := .next (writeByteSeq Config.cmdReadSp s)

end Sys2Proof.Machine
end

