-- ==== Sys2Proof/Machine/Sequencer.lean ====
section
/-! DEFINITION. The sequencer as hardware: what the engine does in one micro-operation step and in one state of CS
(10_state.md R31 to R36), what it fetches, and what a step does when it fetches nothing. -/

namespace Sys2Proof.Machine

/-! ### One micro-operation, or one microsecond of a delay -/

/-- The length of the delay that runs in the sequencer's present state: the columns "lasts" of R33 and R34. -/
def delayLength (q : Sequencer) : Nat :=
  match q.bs with
  | .w1Low => Config.tW1l
  | .w1Rec => Config.tW1h
  | .w0Low => Config.tW0l
  | .w0Rec => Config.tW0h
  | .rLow => Config.tRdl
  | .rWait => Config.tRds
  | .rPad => Config.tRdpad
  | .idle =>
    match q.rp with
    | .rstLow => Config.tRstl
    | .rstRec => Config.tRstrec
    | .prA => Config.tPoll
    | .prB => Config.tPoll
    | .idle => 0

/-- At the phase's bound a timeout is reported and the poll ends (R132). -/
def boundPolls (bound : Nat) (s : State) : State :=
  if s.seq.poll.toNat = bound then advance (presenceTimeout s) else s

/-- The delay of the present state is over: event `D(n)`; in a poll phase the poll is counted (R132). -/
def delayEnded (s : State) : State :=
  match s.seq.bs, s.seq.rp with
  | .idle, .prA => s |> record (.D (delayLength s.seq)) |> countPoll |> boundPolls Config.nPa
  | .idle, .prB => s |> record (.D (delayLength s.seq)) |> countPoll |> boundPolls Config.nPb
  | _, _ => s |> record (.D (delayLength s.seq))

/-- One microsecond passes: DLY counts down (R36). -/
def countDown (s : State) : State := { s with seq.dly := s.seq.dly - 1, obs.now := s.obs.now + 1 }

/-- One microsecond tick of a running delay, which ends it when DLY reaches 0 (R36, R111). -/
def tick (s : State) : State :=
  if s.seq.dly - 1 = 0 then delayEnded (countDown s) else countDown s

/-- The reset pulse begins: RP <- RST_LOW (R131). -/
def startPulse (s : State) : State := s |> setRp .rstLow |> driveLow |> loadDelay Config.tRstl

/-- The reset pulse and its recovery are over: the poll follows unless only the pulse is wanted (R33). -/
def pulseEnded (s : State) : State :=
  if s.seq.opr = 1 then advance (setRp .idle s) else enterPhaseA s

/-- The write slot of SHREG[0] begins (R172, R200 c). -/
def startWriteSlot (s : State) : State :=
  if firstBit s.regs.shreg then
    s |> setShreg (shiftOut s.regs.shreg) |> setBs .w1Low |> driveLow |> loadDelay Config.tW1l
  else s |> setShreg (shiftOut s.regs.shreg) |> setBs .w0Low |> driveLow |> loadDelay Config.tW0l

/-- A read slot begins (R150). -/
def startReadSlot (s : State) : State := s |> setBs .rLow |> driveLow |> loadDelay Config.tRdl

/-- After the eighth slot the byte is over (R35). -/
def boundSlots (byteOver : State → State) (s : State) : State :=
  if s.seq.bitcnt = 8 then advance (byteOver (setByt .idle s)) else s

/-- A slot of a byte is over: BITCNT counts it (R35). -/
def slotCounted (byteOver : State → State) (s : State) : State :=
  s |> setBs .idle |> countBit |> boundSlots byteOver

/-- Where the byte just read goes: RDATA, LO or HI by the state of CS (R22, R32). -/
def storeByte (s : State) : State :=
  match s.seq.cs with
  | .rdlo => shregToLo s
  | .rdhi => shregToHi s
  | .prim => shregToRdata s
  | .idle | .rp1 | .skip1 | .conv | .rp2 | .skip2 | .rdsp | .dec | .init => s

/-- The pad of a read slot is over: its bit goes to SHREG in a byte read (R170), to RDATA in ReadBit (R151). -/
def readSlotEnded (s : State) : State :=
  match s.seq.byt with
  | .rd =>
    s |> setSlotBit none |> setShreg (shiftIn (s.seq.slotBit.getD false) s.regs.shreg) |> slotCounted storeByte
  | .wr | .idle =>
    s |> setSlotBit none |> setBs .idle |> setRdata (zextBit (s.seq.slotBit.getD false)) |> advance

/-- One poll of phase A: sample; a low ends the phase, a high is followed by a delay (R132). -/
def pollA (s : State) : State :=
  if lineLevel s then s |> sampled |> loadDelay Config.tPoll else s |> sampled |> enterPhaseB

/-- One poll of phase B: sample; a high ends the poll with success, a low is followed by a delay (R132). -/
def pollB (s : State) : State :=
  if lineLevel s then s |> sampled |> presenceFound |> advance else s |> sampled |> loadDelay Config.tPoll

/-- The write of byte `v` begins: SHREG <- v, BY <- BY_WR, BITCNT <- 0 (R172). -/
def startWriteByte (v : Byte) (s : State) : State := s |> setShreg v |> setByt .wr |> setBitcnt 0

/-- A byte read begins: BY <- BY_RD, BITCNT <- 0 (R170). -/
def startReadByte (s : State) : State := s |> setByt .rd |> setBitcnt 0

/-- The primitive sequence chosen by OPR begins (R32, row PRIM). Codes 0, 6 and 7 are never in PRIM (log 17). -/
def startPrimitive (s : State) : State :=
  match s.seq.opr.toNat with
  | 1 => startPulse s
  | 2 => enterPhaseA s
  | 3 => startReadSlot s
  | 4 => startReadByte s
  | 5 => startWriteByte s.regs.shreg s
  | _ => advance s

/-- The sub-sequence of CS's state begins: the column "what runs in it" of R32. A busy engine is never in IDLE
(log 17). -/
def startPhase (s : State) : State :=
  match s.seq.cs with
  | .idle => setCs (csAfterAccept s.seq.opr) s
  | .rp1 | .rp2 => startPulse s
  | .skip1 | .skip2 => startWriteByte Config.cmdSkipRom s
  | .conv => startWriteByte Config.cmdConvertT s
  | .rdsp => startWriteByte Config.cmdReadSp s
  | .rdlo | .rdhi => startReadByte s
  | .dec => advance (decodeTemp s)
  | .prim => startPrimitive s
  | .init => startPulse (release s)

/-- One step of a busy engine in the micro-operation view: a tick of the running delay, or what follows it in the
innermost machine at work (BS, then BY, then RP, then CS). Line actions and register updates take no time (R116). -/
def microStep (s : State) : State :=
  if s.seq.dly ≠ 0 then tick s
  else
    match s.seq.bs with
    | .w1Low => s |> setBs .w1Rec |> release |> loadDelay Config.tW1h
    | .w0Low => s |> setBs .w0Rec |> release |> loadDelay Config.tW0h
    | .w1Rec | .w0Rec => slotCounted id s
    | .rLow => s |> setBs .rWait |> release |> loadDelay Config.tRds
    | .rWait => s |> sampled |> setSlotBit (some (lineLevel s)) |> setBs .rPad |> loadDelay Config.tRdpad
    | .rPad => readSlotEnded s
    | .idle =>
      match s.seq.byt with
      | .wr => startWriteSlot s
      | .rd => startReadSlot s
      | .idle =>
        match s.seq.rp with
        | .rstLow => s |> setRp .rstRec |> release |> loadDelay Config.tRstrec
        | .rstRec => pulseEnded s
        | .prA => pollA s
        | .prB => pollB s
        | .idle => startPhase s

/-! ### One state of CS -/

/-- The primitive sequence chosen by OPR, whole (R32, row PRIM; log 17). -/
def primitiveSeq (s : State) : State :=
  match s.seq.opr.toNat with
  | 1 => resetSeq s
  | 2 => presenceSeq s
  | 3 => readBitSeq s
  | 4 => s |> readByteSeq |> shregToRdata
  | 5 => writeByteSeq s.regs.shreg s
  | _ => s

/-- The sub-sequence of CS's state, whole, and the result it writes: the column "what runs in it" of R32. -/
def phaseSeq (s : State) : State :=
  match s.seq.cs with
  | .idle => s
  | .rp1 | .rp2 => resetPresence s
  | .skip1 | .skip2 => writeByteSeq Config.cmdSkipRom s
  | .conv => writeByteSeq Config.cmdConvertT s
  | .rdsp => writeByteSeq Config.cmdReadSp s
  | .rdlo => s |> readByteSeq |> shregToLo
  | .rdhi => s |> readByteSeq |> shregToHi
  | .dec => decodeTemp s
  | .prim => primitiveSeq s
  | .init => s |> release |> resetSeq |> presenceSeq

/-- One step of a busy engine in the phase view: the sub-sequence of CS's state, then CS goes on (R195). -/
def phaseStep (s : State) : State :=
  if s.seq.cs = .idle then setCs (csAfterAccept s.seq.opr) s else advance (phaseSeq s)

/-- No sub-sequence of CS's state is under way. -/
def atPhaseStart (s : State) : Bool :=
  s.seq.rp = .idle && s.seq.bs = .idle && s.seq.byt = .idle && s.seq.dly = 0

/-! ### What a step fetches, and what it does without -/

/-- The command byte the sequencer sends in a state of CS (R91, column "sent in state"). -/
def wireByte : CsState → Option Byte
  | .skip1 | .skip2 => some Config.cmdSkipRom
  | .conv => some Config.cmdConvertT
  | .rdsp => some Config.cmdReadSp
  | .idle | .rp1 | .rp2 | .rdlo | .rdhi | .dec | .prim | .init => none

/-- What this step fetches as an instruction: an idle engine the command word on its ports, in the view in which an
operation is one step (R43, R67); a busy engine at the start of a sending phase the byte of that phase (log 6). -/
def fetch (s : State) : Option CodeWord :=
  if s.flags.busy then
    if s.env.view ≠ .byMicroOperation ∧ atPhaseStart s then (wireByte s.seq.cs).map .wire8 else none
  else if s.env.present.cmdValid ∧ s.env.view = .byOperation then some (.cmd11 s.env.present.word)
  else none

/-- A step that fetches nothing: a busy engine goes on and ignores its command ports (R43); an idle engine accepts a
command that is presented, or waits. `h` is this step's host input. -/
def proceed (h : HostInput) (s : State) : State :=
  if s.flags.busy then
    if s.env.view ≠ .byMicroOperation ∧ atPhaseStart s then phaseStep s else microStep s
  else if h.cmdValid then accept h.cmdOp h.cmdArg s
  else idleFor h.gap s

/-- What a step adds after the instruction it fetched: the command sequencer goes on after a byte it sent (R32); an
operation's completion is part of its own meaning. -/
def afterExec (busy : Bool) (o : Host.Outcome State Fault Refusal) : Host.Outcome State Fault Refusal :=
  match o with
  | .next t => .next (if busy then advance t else t)
  | .fault r => .fault r
  | .refused r => .refused r

/-! ### Placing an instruction where the next step fetches it -/

/-- The host presents command word `w` in the next step to an idle engine watched by operation (log 7). -/
def presentCommand (w : CommandWord) (s : State) : State :=
  { s with
    flags.busy := false
    env.view := .byOperation
    env.host := { cmdValid := true, cmdOp := opOf w, cmdArg := argOf w } :: s.env.host }

/-- The command sequencer of a GetTemperature in progress stands at the start of state `c` (log 6). -/
def standAtPhase (c : CsState) (s : State) : State :=
  { s with
    flags.busy := true
    seq.opr := 7
    seq.cs := c
    seq.rp := .idle
    seq.bs := .idle
    seq.byt := .idle
    seq.dly := 0
    env.view := .byPhase
    env.host := {} :: s.env.host }

/-- The state of CS that sends byte `b`, the first one where two do (R91). -/
def sendingPhase (b : Byte) : Option CsState :=
  if b = Config.cmdSkipRom then some .skip1
  else if b = Config.cmdConvertT then some .conv
  else if b = Config.cmdReadSp then some .rdsp
  else none

/-- The instruction of `nbits` bits and number `w` placed where the next step fetches; a number that is no
instruction has no place and changes nothing. -/
def placeWord (nbits w : Nat) (s : State) : State :=
  if numberFits nbits w then
    if nbits ≤ 8 then
      match sendingPhase (BitVec.ofNat 8 w) with
      | some c => standAtPhase c s
      | none => s
    else presentCommand (BitVec.ofNat 11 w) s
  else s

end Sys2Proof.Machine
end

