-- ==== Sys2Proof/Machine/Dispatch.lean ====
section
/-! DEFINITION. One arm per instruction. -/

namespace Sys2Proof.Machine

/-- The meaning of an instruction in a state: the whole operation, from acceptance to completion. -/
def exec (i : Instr) (s : State) : Host.Outcome State Fault Refusal :=
  match i with
  | .opInitialize arg => Sys2Proof.Machine.execInitialize arg s
  | .opReset arg => Sys2Proof.Machine.execReset arg s
  | .opCheckPresence arg => Sys2Proof.Machine.execCheckPresence arg s
  | .opReadBit arg => Sys2Proof.Machine.execReadBit arg s
  | .opReadByte arg => Sys2Proof.Machine.execReadByte arg s
  | .opWriteByte arg => Sys2Proof.Machine.execWriteByte arg s
  | .opStartConversion arg => Sys2Proof.Machine.execStartConversion arg s
  | .opGetTemperature arg => Sys2Proof.Machine.execGetTemperature arg s
  | .wireSkipRom => Sys2Proof.Machine.execSkipRom s
  | .wireConvertT => Sys2Proof.Machine.execConvertT s
  | .wireReadScratchpad => Sys2Proof.Machine.execReadScratchpad s

end Sys2Proof.Machine
end

