-- ==== Sys2Proof/Machine/Step.lean ====
section
/-! DEFINITION. One step of the machine. -/

namespace Sys2Proof.Machine

/-- One step: hardware reset if the host asserts it (70_reset_and_hazards.md R261), else the instruction that is
fetched, else the engine goes on by itself. Each step uses up one host input. -/
def step (s : State) : Host.Outcome State Fault Refusal :=
  if s.env.present.rst then .next (hardwareReset (beginStep s))
  else
    match fetch s with
    | some code =>
      match decode code with
      | .ok i => afterExec s.flags.busy (exec i (beginStep s))
      | .error e => .refused (.undecodable e)
    | none => .next (proceed s.env.present (beginStep s))

/-- `s` with the instruction of `nbits` bits and number `w` placed where `step` fetches (logs 6 and 7). -/
def State.withFetchWord (s : State) (nbits w : Nat) : State := placeWord nbits w s

end Sys2Proof.Machine
end

