-- ==== Sys2Proof/Safety.lean ====
section
/-! DEFINITION. The terms claims are made in: the spec's traces and closed forms, legal states, the host's duties,
real time, and the loopback fixture. Nothing here is part of the machine. -/

namespace Sys2Proof

open Sys2Proof.Machine

/-! ### Traces of the sequences, oldest event first, as the rules write them -/

/-- `L D(750) Z D(15)` (41_reset_presence.md R131). -/
def resetTrace : List Event := [.L, .D 750, .Z, .D 15]

/-- `L D(2) Z D(60)` for a 1, `L D(60) Z D(2)` for a 0 (42_bit_slots.md R152, R153). -/
def writeSlotTrace (b : Bool) : List Event := if b then [.L, .D 2, .Z, .D 60] else [.L, .D 60, .Z, .D 2]

/-- Eight write slots, slot k carrying bit k (43_byte_transactions.md R172). -/
def writeByteTrace (v : Byte) : List Event := (List.range 8).flatMap fun k => writeSlotTrace (v.getLsbD k)

/-- `L D(2) Z D(12) S(b) D(50)` (42_bit_slots.md R150). -/
def readSlotTrace (b : Bool) : List Event := [.L, .D 2, .Z, .D 12, .S b, .D 50]

/-- Eight read slots answered by the answers `k0` to `k0 + 7` (43_byte_transactions.md R170). -/
def readByteTrace (e : Env) (k0 : Nat) : List Event :=
  (List.range 8).flatMap fun k => readSlotTrace (e.answer (k0 + k))

/-- `b_0 + 2 b_1 + 4 b_2 + ... + 128 b_7` for the answers `k0` to `k0 + 7` (R170). -/
def receivedByte (e : Env) (k0 : Nat) : Byte :=
  BitVec.ofNat 8 ((List.range 8).map fun k => (e.answer (k0 + k)).toNat * 2 ^ k).sum

/-- `[S(b) D(1)]x n` (00_scope.md R11). -/
def pollsTrace (b : Bool) (n : Nat) : List Event := (List.replicate n [Event.S b, Event.D 1]).flatten

/-- A row of the table of 41_reset_presence.md R136. -/
structure PollOutcome where
  absent : Bool
  trace : List Event
  time : Nat
  answers : Nat
  deriving DecidableEq, Repr

/-- The `a` of R136: the least i in 0..199 whose answer, counted from `k`, is low. -/
def firstLow (e : Env) (k : Nat) : Option Nat := (List.range 200).find? fun i => !e.answer (k + i)

/-- The `b` of R136: the least j in 0..239 whose answer, counted from `k`, is high. -/
def firstHigh (e : Env) (k : Nat) : Option Nat := (List.range 240).find? fun j => e.answer (k + j)

/-- `PresenceSeq()` as a function of its answer stream, which begins at answer `k` (R136). -/
def pollOutcome (e : Env) (k : Nat) : PollOutcome :=
  match firstLow e k with
  | none => { absent := true, trace := pollsTrace true 200, time := 200, answers := 200 }
  | some a =>
    match firstHigh e (k + a + 1) with
    | some b =>
      { absent := false
        trace := pollsTrace true a ++ [.S false] ++ pollsTrace false b ++ [.S true]
        time := a + b
        answers := a + b + 2 }
    | none =>
      { absent := true
        trace := pollsTrace true a ++ [.S false] ++ pollsTrace false 240
        time := a + 240
        answers := a + 241 }

/-- The closed form of the decode (45_temperature_decode.md R214): floor(5 raw / 8) up to raw 0x07FF, above it
-floor(5 (65535 - raw) / 8), with raw = 256 HI + LO. -/
def decodedTenths (hi lo : Byte) : Int :=
  let raw : Nat := 256 * hi.toNat + lo.toNat
  if raw ≤ 0x07FF then ((5 * raw / 8 : Nat) : Int) else -((5 * (65535 - raw) / 8 : Nat) : Int)

/-! ### Measures of a trace (oldest event first) -/

/-- The nominal time T: the sum of the n of its `D(n)` (00_scope.md R11). -/
def traceTime : List Event → Nat
  | [] => 0
  | .D n :: t => n + traceTime t
  | .L :: t => traceTime t
  | .Z :: t => traceTime t
  | .S _ :: t => traceTime t

/-- How long the line is driven low, `driven` telling whether it is at the start (70_reset_and_hazards.md R278). -/
def lowTime : Bool → List Event → Nat
  | _, [] => 0
  | _, .L :: t => lowTime true t
  | _, .Z :: t => lowTime false t
  | driven, .D n :: t => (if driven then n else 0) + lowTime driven t
  | driven, .S _ :: t => lowTime driven t

/-! ### Legal states -/

/-- Does the sequencer's present state hold the line low (column "line" of 10_state.md R33 and R34)? -/
abbrev drivesLow (q : Sequencer) : Prop :=
  q.rp = .rstLow ∨ q.bs = .w1Low ∨ q.bs = .w0Low ∨ q.bs = .rLow

/-- CS runs a reset pulse or a poll of a composite operation or of Initialize. -/
abbrev pulsesAndPolls (q : Sequencer) : Prop := q.cs = .rp1 ∨ q.cs = .rp2 ∨ q.cs = .init

/-- The operation code allows CS's state (10_state.md R32). -/
abbrev pathLegal (q : Sequencer) : Prop :=
  match q.cs with
  | .idle => True
  | .init => q.opr = 0
  | .prim => 1 ≤ q.opr.toNat ∧ q.opr.toNat ≤ 5
  | .rp1 => q.opr = 6 ∨ q.opr = 7
  | .skip1 => q.opr = 6 ∨ q.opr = 7
  | .conv => q.opr = 6 ∨ q.opr = 7
  | .rp2 => q.opr = 7
  | .skip2 => q.opr = 7
  | .rdsp => q.opr = 7
  | .rdlo => q.opr = 7
  | .rdhi => q.opr = 7
  | .dec => q.opr = 7

/-- RP's state is one that CS's state runs, and POLL is within the phase's bound, 0 outside (R33, R36, R244). -/
abbrev rpLegal (q : Sequencer) : Prop :=
  match q.rp with
  | .idle => q.poll = 0
  | .rstLow => (pulsesAndPolls q ∨ (q.cs = .prim ∧ q.opr = 1)) ∧ q.poll = 0
  | .rstRec => (pulsesAndPolls q ∨ (q.cs = .prim ∧ q.opr = 1)) ∧ q.poll = 0
  | .prA => (pulsesAndPolls q ∨ (q.cs = .prim ∧ q.opr = 2)) ∧ q.poll.toNat < 200
  | .prB => (pulsesAndPolls q ∨ (q.cs = .prim ∧ q.opr = 2)) ∧ q.poll.toNat < 240

/-- BY's state is one that CS's state runs, and BITCNT is below 8 inside a byte (R35). -/
abbrev bytLegal (q : Sequencer) : Prop :=
  match q.byt with
  | .idle => q.bitcnt.toNat ≤ 8
  | .wr => q.bitcnt.toNat < 8 ∧ q.rp = .idle ∧
      (q.cs = .skip1 ∨ q.cs = .conv ∨ q.cs = .skip2 ∨ q.cs = .rdsp ∨ (q.cs = .prim ∧ q.opr = 5))
  | .rd => q.bitcnt.toNat < 8 ∧ q.rp = .idle ∧ (q.cs = .rdlo ∨ q.cs = .rdhi ∨ (q.cs = .prim ∧ q.opr = 4))

/-- A read slot runs inside a byte read or as ReadBit. -/
abbrev readSlotLegal (q : Sequencer) : Prop :=
  q.rp = .idle ∧ (q.byt = .rd ∨ (q.byt = .idle ∧ q.cs = .prim ∧ q.opr = 3))

/-- BS's state is one that BY's state runs; a bit is held exactly over a read slot's pad (R34; log 8). -/
abbrev bsLegal (q : Sequencer) : Prop :=
  match q.bs with
  | .idle => q.slotBit = none
  | .w1Low => q.byt = .wr ∧ q.slotBit = none
  | .w1Rec => q.byt = .wr ∧ q.slotBit = none
  | .w0Low => q.byt = .wr ∧ q.slotBit = none
  | .w0Rec => q.byt = .wr ∧ q.slotBit = none
  | .rLow => readSlotLegal q ∧ q.slotBit = none
  | .rWait => readSlotLegal q ∧ q.slotBit = none
  | .rPad => readSlotLegal q ∧ q.slotBit ≠ none

/-- The sequencer and the flags fit together: the idle invariant (10_state.md R42) with the counters of an idle
engine (60_exceptions.md R244), and outside IDLE a path of R32 to R36 with OUT_LOW as the columns "line" say. -/
structure SequencerLegal (s : State) : Prop where
  busy_iff : s.flags.busy = false ↔ s.seq.cs = .idle
  idle_quiet : s.seq.cs = .idle → s.seq.rp = .idle ∧ s.seq.bs = .idle ∧ s.seq.byt = .idle
  line : s.flags.outLow = true ↔ drivesLow s.seq
  path : pathLegal s.seq
  rp : rpLegal s.seq
  byt : bytLegal s.seq
  bs : bsLegal s.seq
  dly : s.seq.dly.toNat ≤ delayLength s.seq

/-- The line's drive after a trace, newest event first: the last line event decides. -/
def drivenAfter : List Event → Bool
  | [] => false
  | .L :: _ => true
  | .Z :: _ => false
  | .D _ :: t => drivenAfter t
  | .S _ :: t => drivenAfter t

/-- A trace, newest event first, in which no `L` and no `S` comes while the line is driven low and no delay is 0
(40_timing_and_line_primitives.md R111, R113, R115). -/
def traceLegal : List Event → Bool
  | [] => true
  | .L :: t => !drivenAfter t && traceLegal t
  | .Z :: t => traceLegal t
  | .D n :: t => n != 0 && traceLegal t
  | .S _ :: t => !drivenAfter t && traceLegal t

/-- What was recorded is legal and agrees with OUT_LOW. -/
abbrev TraceFits (s : State) : Prop :=
  traceLegal s.obs.log = true ∧ drivenAfter s.obs.log = s.flags.outLow

/-- The invariant of every step. -/
abbrev Legal (s : State) : Prop := SequencerLegal s ∧ TraceFits s

/-- TEMP lies in -39679 to +1279 (10_state.md R26, 45_temperature_decode.md R215). -/
abbrev TempInRange (s : State) : Prop := -39679 ≤ s.regs.temp.toInt ∧ s.regs.temp.toInt ≤ 1279

/-- SIGN, MAG16 and TEMP are the decode of HI and LO, but for the states between the write of LO and the decode
(10_state.md R23 to R26, R29). -/
abbrev ReadingFits (s : State) : Prop :=
  s.seq.cs = .rdhi ∨ s.seq.cs = .dec ∨
    (s.flags.sign = decodeSign s.regs.hi ∧ s.regs.mag16 = decodeMag16 s.regs.hi s.regs.lo ∧
      s.regs.temp = decodeTempWord s.regs.hi s.regs.lo)

/-- The engine is at rest: idle, line released, sequencer at rest (10_state.md R42, 60_exceptions.md R244). -/
abbrev AtRest (s : State) : Prop :=
  s.flags.busy = false ∧ s.flags.outLow = false ∧ s.seq.cs = .idle ∧ s.seq.rp = .idle ∧ s.seq.bs = .idle ∧
    s.seq.byt = .idle ∧ s.seq.poll = 0 ∧ s.seq.dly = 0 ∧ s.seq.slotBit = none

/-! ### The host's duties (70_reset_and_hazards.md) -/

/-- R274: no command is presented to a busy engine in this step (log 4). -/
abbrev HandshakeKept (s : State) : Prop := s.flags.busy = true → s.env.present.cmdValid = false

/-- U16: no hardware reset in this step. -/
abbrev NoReset (s : State) : Prop := s.env.present.rst = false

/-- The three result ports (10_state.md R39). -/
inductive ResultPort
  | absent | rdata | temp
  deriving DecidableEq, Repr

/-- The operations whose completion makes a port valid: column "valid when" of R39. -/
def ResultPort.writtenBy (p : ResultPort) (op : OpCode) : Bool :=
  match p with
  | .absent => op == 0 || op == 2 || op == 6 || op == 7
  | .rdata => op == 3 || op == 4
  | .temp => op == 7

/-- What a host that keeps R274 has noted: the value of each result port at the last completion of an operation that
writes it; none when there was no such completion since hardware reset (log 16). No part of the machine. -/
structure Results where
  absent : Option Bool
  rdata : Option Byte
  temp : Option TempWord
  deriving DecidableEq, Repr

/-- Nothing noted: what a host knows after hardware reset. -/
def Results.nothing : Results := { absent := none, rdata := none, temp := none }

/-- Has the port been valid since hardware reset (R39)? -/
def Results.known (r : Results) : ResultPort → Bool
  | .absent => r.absent.isSome
  | .rdata => r.rdata.isSome
  | .temp => r.temp.isSome

/-- The results of the operation that has just completed with the ports of `t` are noted (R39). -/
def Results.note (r : Results) (t : State) : Results where
  absent := if ResultPort.absent.writtenBy t.seq.opr then some t.ports.absent else r.absent
  rdata := if ResultPort.rdata.writtenBy t.seq.opr then some t.ports.rdata else r.rdata
  temp := if ResultPort.temp.writtenBy t.seq.opr then some t.ports.temp else r.temp

/-- What is noted after a step from `s` to `t`: hardware reset leaves nothing that is a result (R46), `done` marks a
completion (R39). -/
def Results.afterStep (r : Results) (s t : State) : Results :=
  if s.env.present.rst then .nothing else if t.obs.done then r.note t else r

/-- R274: the host reads a result port only when `busy` = 0 and after the `done` of an operation that writes it. -/
abbrev MayReadResults (p : ResultPort) (r : Results) (s : State) : Prop :=
  s.flags.busy = false ∧ r.known p = true

/-- Every noted value is still on its port, but while an operation that writes the port is in progress (R39, R44). -/
structure ResultsHeld (r : Results) (s : State) : Prop where
  absent : ∀ x, r.absent = some x →
    s.ports.absent = x ∨ (s.flags.busy = true ∧ ResultPort.absent.writtenBy s.seq.opr = true)
  rdata : ∀ x, r.rdata = some x →
    s.ports.rdata = x ∨ (s.flags.busy = true ∧ ResultPort.rdata.writtenBy s.seq.opr = true)
  temp : ∀ x, r.temp = some x →
    s.ports.temp = x ∨ (s.flags.busy = true ∧ ResultPort.temp.writtenBy s.seq.opr = true)

/-- R271: the conversion time has passed between two nominal times (log 15). -/
abbrev ConversionWaited (startedAt readAt : Nat) : Prop := startedAt + Config.tConv ≤ readAt

/-- R112: a factor of the real tick, one unknown constant of a run (log 14). -/
abbrev TickFactor (f : Rat) : Prop := 1 - Config.tickTol ≤ f ∧ f ≤ 1 + Config.tickTol

/-- R112: the real time of a nominal time. -/
def realTime (f : Rat) (nominal : Nat) : Rat := f * nominal

/-! ### Running the machine -/

/-- `n` steps. -/
def steps (n : Nat) (s : State) : Host.Outcome State Fault Refusal := Sys2Proof.core.run n s

/-- `n` steps with a host that notes the results. -/
def stepsNoting : Nat → State → Results → Host.Outcome (State × Results) Fault Refusal
  | 0, s, r => .next (s, r)
  | n + 1, s, r =>
    match step s with
    | .next t => stepsNoting n t (r.afterStep s t)
    | .fault e => .fault e
    | .refused e => .refused e

/-- Instructions one after the other, each run whole. -/
def execAll : List Instr → State → Host.Outcome State Fault Refusal
  | [], s => .next s
  | i :: is, s =>
    match exec i s with
    | .next t => execAll is t
    | .fault r => .fault r
    | .refused r => .refused r

/-- `s` watched in view `v`, with `inputs` the host's next port values and nothing after them. -/
def watched (v : View) (inputs : List HostInput) (s : State) : State :=
  { s with env := { s.env with view := v, host := inputs } }

/-- The host presents command word `w`. -/
def presenting (w : CommandWord) : HostInput := { cmdValid := true, cmdOp := opOf w, cmdArg := argOf w }

/-! ### Host programs (30_encoding.md R84) -/

/-- A line of a host program: a command, or one of the two pseudo-instructions. -/
inductive HostLine
  | command (w : CommandWord)
  /-- The two lines `Reset` and `CheckPresence`. -/
  | resetPresence
  /-- `Wait n`: n microseconds pass with the engine idle. -/
  | wait (n : Nat)
  deriving DecidableEq, Repr

/-- What the host presents for a line. -/
def HostLine.inputs : HostLine → List HostInput
  | .command w => [presenting w]
  | .resetPresence => [presenting 0x100, presenting 0x200]
  | .wait n => [{ gap := n }]

/-- What a line does to an idle engine. -/
def runLine : HostLine → State → Host.Outcome State Fault Refusal
  | .command w, s => exec (decodeCommand w) s
  | .resetPresence, s => execAll [.opReset 0, .opCheckPresence 0] s
  | .wait n, s => .next (idleFor n s)

/-- What a program does, line after line. -/
def runLines : List HostLine → State → Host.Outcome State Fault Refusal
  | [], s => .next s
  | l :: ls, s =>
    match runLine l s with
    | .next t => runLines ls t
    | .fault r => .fault r
    | .refused r => .refused r

/-! ### The loopback fixture, test apparatus and no hardware (95_test_vectors.md section 2) -/

/-- The bits the fixture queues from a trace, oldest event first: at the end of a low pulse a bit is pending, 1 iff the
pulse was shorter than 15; the next `L` queues it, a `Sample()` shows that the slot was a read slot and drops it. -/
def loopbackScan (driven : Bool) (low : Nat) (pending : Option Bool) : List Event → List Bool
  | [] => pending.toList
  | .L :: t => pending.toList ++ loopbackScan true 0 none t
  | .Z :: t => loopbackScan false low (if driven then some (decide (low < 15)) else pending) t
  | .D n :: t => loopbackScan driven (if driven then low + n else low) pending t
  | .S _ :: t => loopbackScan driven low none t

/-- The fixture's queue after a trace. -/
def loopbackQueue (t : List Event) : List Bool := loopbackScan false 0 none t

end Sys2Proof
end

