-- ==== Sys2Proof/Certificates/Slice0/Obligations.lean ====
section
/-! DEFINITION. The statements about the engine. Those with basis 'derived' rest on rules the spec itself marks
[derived], or on a convention of the model named in the docstring. -/

open Sys2Proof Sys2Proof.Machine

/-! ### Encoding -/

/-- Every instruction decodes back from its bytes and from its number, with every operand at every value. The layout
of a command word in bytes is the model's choice (log 5). -/
def Obligations.EncodedInstructionDecodesBack : Prop :=
  ∀ i : Instr, decodeBytes (encodeBytes i) = .ok i ∧ decode (encode i) = .ok i ∧
    decodeTableWord (codeNumber (encode i)).1 (codeNumber (encode i)).2 = some i

/-- Each of the 2048 command words is exactly one operation: it decodes, the operation encodes to it again, and exactly
one row of the opcode table covers it, the operation's (30_encoding.md R83, which the spec marks as derived). -/
def Obligations.CommandWordIsExactlyOneOperation : Prop :=
  ∀ w : CommandWord, ∃ i : Instr, decode (.cmd11 w) = .ok i ∧ encode i = .cmd11 w ∧
    (opcodeRows.filter fun r => r.covers (.cmd11 w)).map OpcodeRow.mnemonic = [i.mnemonic]

/-- A byte is a wire command iff it is one of the three of 30_encoding.md R91; as an instruction this is the model's
reading (log 6). -/
def Obligations.WireByteIsOneOfThree : Prop :=
  ∀ (b : Byte) (i : Instr), decode (.wire8 b) = .ok i ↔
    (b = 0xCC ∧ i = .wireSkipRom) ∨ (b = 0x44 ∧ i = .wireConvertT) ∨ (b = 0xBE ∧ i = .wireReadScratchpad)

/-- Words written out from the spec's encodings (30_encoding.md R81, R91). -/
def Obligations.SampleWordsDecode : Prop :=
  decode (.cmd11 0b00100000000) = .ok (.opReset 0x00) ∧ decode (.cmd11 0b01111111111) = .ok (.opReadBit 0xFF) ∧
  decode (.cmd11 0b10111001100) = .ok (.opWriteByte 0xCC) ∧
  decode (.cmd11 0b11100000000) = .ok (.opGetTemperature 0x00) ∧
  decode (.wire8 0b10111110) = .ok .wireReadScratchpad ∧ decodeTableWord 16 0x800 = none

/-- 30_encoding.md R82: WriteByte's acceptance loads ARG as it is; in every other operation any ARG selects the same
operation with the same behaviour. -/
def Obligations.ArgumentIsIgnoredButByWriteByte : Prop :=
  (∀ (w w' : CommandWord) (s : State), opOf w = opOf w' → opOf w ≠ 5 →
    exec (decodeCommand w) s = exec (decodeCommand w') s) ∧
  (∀ (w : CommandWord) (s : State), opOf w = 5 → decodeCommand w = .opWriteByte (argOf w) ∧
    (accept (opOf w) (argOf w) s).regs.shreg = w.extractLsb' 0 8) ∧
  (∀ (w : CommandWord) (s : State), opOf w ≠ 5 → (accept (opOf w) (argOf w) s).regs.shreg = s.regs.shreg)

/-- An assembler line gives a word of its mnemonic that carries its operand, and every command an assembler can emit has
a line (30_encoding.md R84, the syntax being the spec's choice). -/
def Obligations.AssembledLineIsItsCommand : Prop :=
  (∀ (m : String) (o : Option Byte) (w : CommandWord), assemble m o = some w →
    (decodeCommand w).mnemonic = m ∧ (decodeCommand w).assembled = true ∧ (o ≠ none ↔ m = "WriteByte") ∧
    argOf w = o.getD 0x00) ∧
  (∀ i : Instr, i.assembled = true → ∃ (o : Option Byte) (w : CommandWord),
    assemble i.mnemonic o = some w ∧ encode i = .cmd11 w)

/-! ### The step -/

/-- A step runs the instruction it fetches: an idle engine the command on its ports; the command sequencer at the
start of a sending phase the byte of that phase, after which CS goes on. The views are the model's (logs 1, 6). -/
def Obligations.StepRunsTheFetchedInstruction : Prop :=
  (∀ (s : State) (i : Instr), s.env.present.rst = false → s.flags.busy = false → s.env.present.cmdValid = true →
    s.env.view = .byOperation → decode (.cmd11 s.env.present.word) = .ok i → step s = exec i (beginStep s)) ∧
  (∀ (s t : State) (b : Byte) (i : Instr), s.env.present.rst = false → s.flags.busy = true →
    s.env.view ≠ .byMicroOperation → atPhaseStart s = true → wireByte s.seq.cs = some b →
    decode (.wire8 b) = .ok i → exec i (beginStep s) = .next t → step s = .next (advance t))

/-- The instruction `withFetchWord` places is the one the next step runs; a command's completion is in its own
meaning, after a wire byte CS goes on (logs 6, 7). -/
def Obligations.PlacedInstructionRunsNext : Prop :=
  ∀ (i : Instr) (s : State), ∃ placed : State,
    placed = s.withFetchWord (codeNumber (encode i)).1 (codeNumber (encode i)).2 ∧ placed.regs = s.regs ∧
    ∃ t, exec i (beginStep placed) = .next t ∧
      step placed = .next (if placed.flags.busy = true then advance t else t)

/-- The engine has no fault, refuses nothing and cannot get stuck (60_exceptions.md R246, marked derived). -/
def Obligations.EveryStepAnswersANextState : Prop := ∀ s : State, ∃ t, step s = .next t

/-- Hardware reset in any state, an operation in progress among them: every register of 10_state.md R46 at its reset
value, the line released, no `done` (70_reset_and_hazards.md R261). -/
def Obligations.HardwareResetLeavesResetValues : Prop :=
  ∀ s : State, s.env.present.rst = true → ∃ t, step s = .next t ∧
    t.regs.shreg = 0x00 ∧ t.regs.rdata = 0x00 ∧ t.regs.lo = 0x00 ∧ t.regs.hi = 0x00 ∧ t.regs.mag16 = 0x0000 ∧
    t.regs.temp = 0 ∧ t.flags.busy = false ∧ t.flags.absent = true ∧ t.flags.sign = false ∧
    t.flags.outLow = false ∧ t.seq.opr = 0 ∧ t.seq.cs = .idle ∧ t.seq.rp = .idle ∧ t.seq.bs = .idle ∧
    t.seq.byt = .idle ∧ t.seq.bitcnt = 0 ∧ t.seq.poll = 0 ∧ t.seq.dly = 0 ∧ t.obs.done = false

/-- The state after reset is legal, at rest, and meets the invariants below. -/
def Obligations.ResetStateIsLegal : Prop :=
  Legal State.reset ∧ AtRest State.reset ∧ TempInRange State.reset ∧ ReadingFits State.reset

/-- Every step keeps the sequencer, the flags and the recorded trace fitting together: the idle invariant of
10_state.md R42 (marked derived), the paths of R32 to R36, OUT_LOW as the states say, no `L` on a driven line and no
sample of a driven line. -/
def Obligations.StepKeepsLegal : Prop := ∀ s t : State, Legal s → step s = .next t → Legal t

/-- In a legal state an engine that is not busy is at rest (10_state.md R42, 60_exceptions.md R244). -/
def Obligations.IdleEngineIsAtRest : Prop := ∀ s : State, Legal s → s.flags.busy = false → AtRest s

/-- TEMP stays in -39679 to +1279 in every step (10_state.md R26, the range marked derived). -/
def Obligations.StepKeepsTempInRange : Prop := ∀ s t : State, TempInRange s → step s = .next t → TempInRange t

/-- SIGN, MAG16 and TEMP stay the decode of the bytes in HI and LO, but between the write of LO and the decode. -/
def Obligations.StepKeepsReadingFits : Prop :=
  ∀ s t : State, Legal s → ReadingFits s → step s = .next t → ReadingFits t

/-- Running a command micro-operation by micro-operation and microsecond by microsecond, with a host that then stays
quiet, ends in exactly the state of the whole operation, and the engine is busy until then. -/
def Obligations.MicroOperationsRefineTheOperation : Prop :=
  ∀ (s t : State) (w : CommandWord), AtRest s →
    exec (decodeCommand w) (watched .byMicroOperation [] s) = .next t →
    ∃ n, steps (n + 1) (watched .byMicroOperation [presenting w] s) = .next t ∧
      ∀ k, k < n → ∃ u, steps (k + 1) (watched .byMicroOperation [presenting w] s) = .next u ∧ u.flags.busy = true

/-- Running a command state of CS by state of CS ends in exactly the state of the whole operation, after one phase
for a primitive operation or Initialize, three for StartConversion, nine for GetTemperature. -/
def Obligations.PhasesRefineTheOperation : Prop :=
  ∀ (s t : State) (w : CommandWord), AtRest s →
    exec (decodeCommand w) (watched .byPhase [] s) = .next t →
    steps (1 + if opOf w = 6 then 3 else if opOf w = 7 then 9 else 1) (watched .byPhase [presenting w] s) = .next t

/-- 10_state.md R43. Acceptance: OPR, BUSY, SHREG for WriteByte, CS as R32's row IDLE, nothing else. A busy engine
ignores its command ports. Completion: the step that clears BUSY leaves CS = IDLE and raises `done`. -/
def Obligations.AcceptanceBusyAndCompletion : Prop :=
  (∀ s : State, s.env.present.rst = false → s.flags.busy = false → s.env.present.cmdValid = true →
    s.env.view ≠ .byOperation → ∃ t, step s = .next t ∧
      t.seq = { s.seq with
        opr := s.env.present.cmdOp
        cs := if s.env.present.cmdOp = 0 then .init
          else if s.env.present.cmdOp = 6 ∨ s.env.present.cmdOp = 7 then .rp1 else .prim } ∧
      t.flags = { s.flags with busy := true } ∧
      t.regs = { s.regs with
        shreg := if s.env.present.cmdOp = 5 then s.env.present.cmdArg else s.regs.shreg } ∧
      t.obs = { s.obs with done := false } ∧ t.env = { s.env with host := s.env.host.tail }) ∧
  (∀ (s : State) (h h' : HostInput) (rest : List HostInput), s.flags.busy = true → h.rst = false →
    h'.rst = false → step { s with env.host := h :: rest } = step { s with env.host := h' :: rest }) ∧
  (∀ s t : State, s.env.present.rst = false → s.flags.busy = true → step s = .next t → t.flags.busy = false →
    t.seq.cs = .idle ∧ t.obs.done = true)

/-- `done` is 1 after a step if and only if that step is a completion: it clears BUSY, or it runs a whole operation
(10_state.md R39). -/
def Obligations.DoneMarksExactlyTheCompletions : Prop :=
  ∀ s t : State, s.env.present.rst = false → step s = .next t →
    (t.obs.done = true ↔ (s.flags.busy = true ∧ t.flags.busy = false) ∨
      (s.flags.busy = false ∧ s.env.present.cmdValid = true ∧ s.env.view = .byOperation))

/-- An idle engine that is presented nothing changes nothing: the host's microseconds pass (60_exceptions.md R245;
`Wait n`, 30_encoding.md R84; one list entry a step is the model's choice, log 2). -/
def Obligations.IdleEngineOnlyLetsTimePass : Prop :=
  ∀ s : State, s.env.present.rst = false → s.flags.busy = false → s.env.present.cmdValid = false →
    step s = .next { s with
      env.host := s.env.host.tail, obs.now := s.obs.now + s.env.present.gap, obs.done := false }

/-- A host program, its lines presented one after the other to an engine at rest, does what its lines do in order
(30_encoding.md R84, 44_command_sequences.md R200); presenting a command a step is the model's choice (logs 1, 2, 7). -/
def Obligations.HostProgramRunsLineByLine : Prop :=
  ∀ (s : State) (lines : List HostLine), AtRest s → ∃ t u,
    steps (lines.flatMap HostLine.inputs).length (watched .byOperation (lines.flatMap HostLine.inputs) s) = .next t ∧
    runLines lines (watched .byOperation [] s) = .next u ∧ t.regs = u.regs ∧ t.flags = u.flags ∧ t.seq = u.seq ∧
    t.env = u.env ∧ t.trace = u.trace ∧ t.obs.now = u.obs.now

/-- A delay of which `n` microseconds are left takes `n` ticks, in which nothing but DLY and the time changes; with the
last one the event `D` stands in the trace and, outside the poll phases, nothing else has changed; in a poll phase POLL
is counted, and at its bound ABSENT <- 1 and RP is idle (10_state.md R36, 41_reset_presence.md R132; when the event is
recorded is the model's choice, log 11). -/
def Obligations.DelayTakesItsTicks : Prop :=
  ∀ s : State, s.flags.busy = true → s.env.view = .byMicroOperation → s.env.host = [] →
    0 < s.seq.dly.toNat →
    (∀ k, k < s.seq.dly.toNat → 0 < k → steps k s = .next { s with
      seq.dly := s.seq.dly - BitVec.ofNat 10 k, obs.now := s.obs.now + k, obs.done := false }) ∧
    ∃ t, steps s.seq.dly.toNat s = .next t ∧ t.seq.dly = 0 ∧ t.obs.now = s.obs.now + s.seq.dly.toNat ∧
      t.obs.log = .D (delayLength s.seq) :: s.obs.log ∧ t.flags.outLow = s.flags.outLow ∧
      t.env = s.env ∧ t.regs = s.regs ∧ t.flags.sign = s.flags.sign ∧
      (s.seq.bs ≠ .idle ∨ (s.seq.rp ≠ .prA ∧ s.seq.rp ≠ .prB) →
        t.seq = { s.seq with dly := 0 } ∧ t.flags = s.flags ∧ t.obs.done = false) ∧
      (∀ bound : Nat, s.seq.bs = .idle → (s.seq.rp = .prA ∧ bound = 200) ∨ (s.seq.rp = .prB ∧ bound = 240) →
        (s.seq.poll.toNat + 1 ≠ bound → t.seq = { s.seq with dly := 0, poll := s.seq.poll + 1 } ∧
          t.flags = s.flags ∧ t.obs.done = false) ∧
        (s.seq.poll.toNat + 1 = bound → t.flags.absent = true ∧ t.seq.rp = .idle))

/-- At the start of a state of CS, one step in the phase view runs that state and goes to the state in column "next"
of 10_state.md R32; an operation that ends leaves BUSY = 0 and raises `done`. -/
def Obligations.PhaseStepFollowsTheTable : Prop :=
  ∀ s : State, s.env.present.rst = false → s.flags.busy = true → s.env.view = .byPhase →
    atPhaseStart s = true → s.seq.cs ≠ .idle → ∃ t, step s = .next t ∧
      t.seq.cs = (match s.seq.cs with
        | .rp1 => .skip1
        | .skip1 => .conv
        | .conv => if s.seq.opr = 7 then .rp2 else .idle
        | .rp2 => .skip2
        | .skip2 => .rdsp
        | .rdsp => .rdlo
        | .rdlo => .rdhi
        | .rdhi => .dec
        | .dec => .idle
        | .prim => .idle
        | .init => .idle
        | .idle => .idle) ∧
      (t.flags.busy = false ↔ t.seq.cs = .idle) ∧ (t.obs.done = true ↔ t.seq.cs = .idle)

/-! ### The operations: each completes, in every state, with this effect -/

/-- Reset (41_reset_presence.md R133): `L D(750) Z D(15)`, 765 microseconds, no register or flag written, no sample. -/
def Obligations.ResetSendsThePulse : Prop :=
  (∀ w : CommandWord, w &&& 0x700 = 0x100 → decode (.cmd11 w) = .ok (.opReset (argOf w))) ∧
  ∀ (arg : Byte) (s : State), ∃ t, exec (.opReset arg) s = .next t ∧
    t.trace = s.trace ++ [.L, .D 750, .Z, .D 15] ∧ t.obs.now = s.obs.now + 765 ∧ t.obs.done = true ∧
    t.regs = s.regs ∧ t.flags = { s.flags with busy := false, outLow := false } ∧ t.env = s.env

/-- CheckPresence (41_reset_presence.md R134): ABSENT, trace, time and answers used as the table of R136 gives them
for the answers to come, whatever they are; the output is ABSENT. -/
def Obligations.CheckPresenceFollowsTheTable : Prop :=
  (∀ w : CommandWord, w &&& 0x700 = 0x200 → decode (.cmd11 w) = .ok (.opCheckPresence (argOf w))) ∧
  ∀ (arg : Byte) (s : State), ∃ t, exec (.opCheckPresence arg) s = .next t ∧
    t.flags = { s.flags with busy := false, absent := (pollOutcome s.env 0).absent } ∧
    t.trace = s.trace ++ (pollOutcome s.env 0).trace ∧ t.obs.now = s.obs.now + (pollOutcome s.env 0).time ∧
    (pollOutcome s.env 0).time ≤ 439 ∧
    t.env = s.env.consume (pollOutcome s.env 0).answers ∧ t.obs.done = true ∧ t.regs = s.regs ∧
    t.ports.absent = (pollOutcome s.env 0).absent

/-- Initialize (41_reset_presence.md R135): `Z`, the reset pulse, the poll; ABSENT is the poll's result. -/
def Obligations.InitializeReleasesResetsAndProbes : Prop :=
  (∀ w : CommandWord, w &&& 0x700 = 0x000 → decode (.cmd11 w) = .ok (.opInitialize (argOf w))) ∧
  ∀ (arg : Byte) (s : State), ∃ t, exec (.opInitialize arg) s = .next t ∧
    t.flags = { s.flags with busy := false, outLow := false, absent := (pollOutcome s.env 0).absent } ∧
    t.trace = s.trace ++ [.Z, .L, .D 750, .Z, .D 15] ++ (pollOutcome s.env 0).trace ∧
    t.obs.now = s.obs.now + (765 + (pollOutcome s.env 0).time) ∧ (pollOutcome s.env 0).time ≤ 439 ∧
    t.env = s.env.consume (pollOutcome s.env 0).answers ∧ t.obs.done = true ∧ t.regs = s.regs ∧
    t.ports.absent = (pollOutcome s.env 0).absent

/-- ReadBit (42_bit_slots.md R151): one read slot; RDATA is 0x00 or 0x01, the answer of its one sample. -/
def Obligations.ReadBitReturnsTheSample : Prop :=
  (∀ w : CommandWord, w &&& 0x700 = 0x300 → decode (.cmd11 w) = .ok (.opReadBit (argOf w))) ∧
  ∀ (arg : Byte) (s : State), ∃ t, exec (.opReadBit arg) s = .next t ∧
    t.regs = { s.regs with rdata := if s.env.answer 0 = true then 0x01 else 0x00 } ∧ t.ports.rdata = t.regs.rdata ∧
    t.trace = s.trace ++ [.L, .D 2, .Z, .D 12, .S (s.env.answer 0), .D 50] ∧ t.obs.now = s.obs.now + 64 ∧
    t.env = s.env.consume 1 ∧ t.obs.done = true ∧ t.flags = { s.flags with busy := false, outLow := false }

/-- ReadByte (43_byte_transactions.md R171): eight read slots; SHREG and RDATA become b_0 + 2 b_1 + ... + 128 b_7,
the first answer being bit 0. -/
def Obligations.ReadByteAssemblesBitZeroFirst : Prop :=
  (∀ w : CommandWord, w &&& 0x700 = 0x400 → decode (.cmd11 w) = .ok (.opReadByte (argOf w))) ∧
  ∀ (arg : Byte) (s : State), ∃ t, exec (.opReadByte arg) s = .next t ∧
    t.regs = { s.regs with shreg := receivedByte s.env 0, rdata := receivedByte s.env 0 } ∧ t.ports.rdata = t.regs.rdata ∧
    (∀ k, k < 8 → t.regs.rdata.getLsbD k = s.env.answer k) ∧
    t.trace = s.trace ++ readByteTrace s.env 0 ∧ t.obs.now = s.obs.now + 512 ∧
    t.env = s.env.consume 8 ∧ t.obs.done = true ∧ t.flags = { s.flags with busy := false, outLow := false }

/-- WriteByte (43_byte_transactions.md R173): acceptance loads ARG; eight write slots, slot k
carrying bit k of ARG; SHREG ends 0x00. -/
def Obligations.WriteByteSendsBitZeroFirst : Prop :=
  (∀ w : CommandWord, w &&& 0x700 = 0x500 → decode (.cmd11 w) = .ok (.opWriteByte (argOf w))) ∧
  ∀ (arg : Byte) (s : State), ∃ t, exec (.opWriteByte arg) s = .next t ∧
    (accept 5 arg s).regs.shreg = arg ∧
    t.regs = { s.regs with shreg := 0x00 } ∧ t.trace = s.trace ++ writeByteTrace arg ∧
    t.obs.now = s.obs.now + 496 ∧ t.env = s.env ∧ t.obs.done = true ∧
    t.flags = { s.flags with busy := false, outLow := false }

/-- StartConversion (44_command_sequences.md R193): reset pulse, poll, 0xCC, 0x44, whatever the poll's result. -/
def Obligations.StartConversionSendsItsChain : Prop :=
  (∀ w : CommandWord, w &&& 0x700 = 0x600 → decode (.cmd11 w) = .ok (.opStartConversion (argOf w))) ∧
  ∀ (arg : Byte) (s : State), ∃ t, exec (.opStartConversion arg) s = .next t ∧
    t.regs = { s.regs with shreg := 0x00 } ∧
    t.flags = { s.flags with busy := false, outLow := false, absent := (pollOutcome s.env 0).absent } ∧
    t.trace = s.trace ++ resetTrace ++ (pollOutcome s.env 0).trace ++ writeByteTrace 0xCC ++ writeByteTrace 0x44 ∧
    t.obs.now = s.obs.now + (1757 + (pollOutcome s.env 0).time) ∧ (pollOutcome s.env 0).time ≤ 439 ∧
    t.env = s.env.consume (pollOutcome s.env 0).answers ∧ t.obs.done = true

/-- GetTemperature (44_command_sequences.md R194): the whole chain; LO and HI are the bytes read, SIGN, MAG16 and TEMP
their decode by the closed form of R214, ABSENT the second poll's result, SHREG equal to HI, RDATA unchanged. -/
def Obligations.GetTemperatureReadsAndDecodes : Prop :=
  (∀ w : CommandWord, w &&& 0x700 = 0x700 → decode (.cmd11 w) = .ok (.opGetTemperature (argOf w))) ∧
  ∀ (arg : Byte) (s : State) (p1 p2 : PollOutcome) (n : Nat), p1 = pollOutcome s.env 0 →
    p2 = pollOutcome s.env p1.answers → n = p1.answers + p2.answers →
    ∃ t, exec (.opGetTemperature arg) s = .next t ∧
      t.regs.lo = receivedByte s.env n ∧ t.regs.hi = receivedByte s.env (n + 8) ∧ t.regs.shreg = t.regs.hi ∧
      t.regs.rdata = s.regs.rdata ∧ (t.flags.sign = true ↔ 7 < t.regs.hi.toNat) ∧
      t.regs.mag16.toNat = (if t.flags.sign = true then 65535 - (256 * t.regs.hi.toNat + t.regs.lo.toNat)
        else 256 * t.regs.hi.toNat + t.regs.lo.toNat) ∧
      t.regs.temp.toInt = decodedTenths t.regs.hi t.regs.lo ∧
      t.flags.absent = p2.absent ∧ t.flags.busy = false ∧ t.flags.outLow = false ∧
      t.trace = s.trace ++ resetTrace ++ p1.trace ++ writeByteTrace 0xCC ++ writeByteTrace 0x44 ++
        resetTrace ++ p2.trace ++ writeByteTrace 0xCC ++ writeByteTrace 0xBE ++
        readByteTrace s.env n ++ readByteTrace s.env (n + 8) ∧
      t.obs.now = s.obs.now + (4538 + p1.time + p2.time) ∧ p1.time ≤ 439 ∧ p2.time ≤ 439 ∧
      t.ports.temp = t.regs.temp ∧ t.env = s.env.consume (n + 16) ∧ t.obs.done = true

/-- The three command bytes the sequencer sends: eight write slots of the byte, 496 microseconds, SHREG ends 0, and
nothing else of the registers, the flags but OUT_LOW, CS, RP, OPR, POLL, the inputs and `done` changes. That a wire
byte is an instruction is the model's reading (log 6); the line cannot tell it from WriteByte of the same byte. -/
def Obligations.WireCommandsSendTheirByte : Prop :=
  ∀ (i : Instr) (b : Byte) (s : State),
    (i = .wireSkipRom ∧ b = 0xCC) ∨ (i = .wireConvertT ∧ b = 0x44) ∨ (i = .wireReadScratchpad ∧ b = 0xBE) →
    ∃ t u, exec i s = .next t ∧ exec (.opWriteByte b) s = .next u ∧ t.trace = u.trace ∧
      t.trace = s.trace ++ writeByteTrace b ∧ t.obs.now = s.obs.now + 496 ∧ t.obs.done = s.obs.done ∧
      t.regs = { s.regs with shreg := 0x00 } ∧ t.flags = { s.flags with outLow := false } ∧
      t.seq = { s.seq with bs := .idle, byt := .idle, bitcnt := 8, dly := 0 } ∧ t.env = s.env

/-! ### Frames and whole-machine rules -/

/-- 10_state.md R44: what each operation writes and what it leaves unchanged. -/
def Obligations.OperationsWriteOnlyTheirRegisters : Prop :=
  ∀ (arg : Byte) (s : State),
    (∃ t, exec (.opInitialize arg) s = .next t ∧ t.regs = s.regs ∧ t.flags.sign = s.flags.sign ∧
      t.flags.outLow = false) ∧
    (∃ t, exec (.opReset arg) s = .next t ∧ t.regs = s.regs ∧ t.flags.sign = s.flags.sign ∧
      t.flags.absent = s.flags.absent ∧ t.flags.outLow = false) ∧
    (∃ t, exec (.opCheckPresence arg) s = .next t ∧ t.regs = s.regs ∧ t.flags.sign = s.flags.sign ∧
      t.flags.outLow = s.flags.outLow) ∧
    (∃ t, exec (.opReadBit arg) s = .next t ∧ t.regs = { s.regs with rdata := t.regs.rdata } ∧
      (t.regs.rdata = 0 ∨ t.regs.rdata = 1) ∧ t.flags.sign = s.flags.sign ∧ t.flags.absent = s.flags.absent ∧
      t.flags.outLow = false) ∧
    (∃ t, exec (.opReadByte arg) s = .next t ∧
      t.regs = { s.regs with shreg := t.regs.rdata, rdata := t.regs.rdata } ∧ t.flags.sign = s.flags.sign ∧
      t.flags.absent = s.flags.absent ∧ t.flags.outLow = false) ∧
    (∃ t, exec (.opWriteByte arg) s = .next t ∧ t.regs = { s.regs with shreg := 0 } ∧
      t.flags.sign = s.flags.sign ∧ t.flags.absent = s.flags.absent ∧ t.flags.outLow = false) ∧
    (∃ t, exec (.opStartConversion arg) s = .next t ∧ t.regs = { s.regs with shreg := 0 } ∧
      t.flags.sign = s.flags.sign ∧ t.flags.outLow = false) ∧
    (∃ t, exec (.opGetTemperature arg) s = .next t ∧ t.regs.shreg = t.regs.hi ∧ t.regs.rdata = s.regs.rdata ∧
      t.flags.outLow = false)

/-- From rest every operation ends at rest, with OPR holding its code (10_state.md R42, R43), and BITCNT is 8 after a
byte and otherwise kept (log 10). -/
def Obligations.OperationsEndAtRest : Prop :=
  ∀ (w : CommandWord) (s : State), AtRest s → ∃ t, exec (decodeCommand w) s = .next t ∧ AtRest t ∧
    t.seq.opr = opOf w ∧ t.seq.bitcnt = if (opOf w).toNat ≤ 3 then s.seq.bitcnt else 8

/-- Which states of the sequencer change which register, over every micro-operation step from a legal state:
RDATA only ReadBit and ReadByte, LO only RDLO, HI only RDHI, MAG16, TEMP and SIGN only DEC, ABSENT only a poll
(10_state.md R22 to R26, R28, R29). -/
def Obligations.RegistersChangeOnlyInTheirStates : Prop :=
  ∀ s t : State, Legal s → s.env.view = .byMicroOperation → s.env.present.rst = false → step s = .next t →
    (t.regs.rdata ≠ s.regs.rdata → s.seq.cs = .prim ∧ (s.seq.opr = 3 ∨ s.seq.opr = 4)) ∧
    (t.regs.lo ≠ s.regs.lo → s.seq.cs = .rdlo) ∧ (t.regs.hi ≠ s.regs.hi → s.seq.cs = .rdhi) ∧
    (t.regs.mag16 ≠ s.regs.mag16 → s.seq.cs = .dec) ∧ (t.regs.temp ≠ s.regs.temp → s.seq.cs = .dec) ∧
    (t.flags.sign ≠ s.flags.sign → s.seq.cs = .dec) ∧
    (t.flags.absent ≠ s.flags.absent → s.seq.rp = .prA ∨ s.seq.rp = .prB)

/-- 10_state.md R45 (marked derived): with the same answers to come, the values of the data registers and flags before
an operation change neither its trace nor its time nor the answers it uses, and each register and flag is either
written with the same value or kept in both runs. -/
def Obligations.OldRegistersDoNotMatter : Prop :=
  ∀ (i : Instr) (s : State) (r : Regs) (f : Flags), ∃ t t',
    exec i s = .next t ∧ exec i { s with regs := r, flags := f } = .next t' ∧
    t'.trace = t.trace ∧ t'.obs.now = t.obs.now ∧ t'.env = t.env ∧ t'.seq = t.seq ∧
    (t'.regs.shreg = t.regs.shreg ∨ (t'.regs.shreg = r.shreg ∧ t.regs.shreg = s.regs.shreg)) ∧
    (t'.regs.rdata = t.regs.rdata ∨ (t'.regs.rdata = r.rdata ∧ t.regs.rdata = s.regs.rdata)) ∧
    (t'.regs.lo = t.regs.lo ∨ (t'.regs.lo = r.lo ∧ t.regs.lo = s.regs.lo)) ∧
    (t'.regs.hi = t.regs.hi ∨ (t'.regs.hi = r.hi ∧ t.regs.hi = s.regs.hi)) ∧
    (t'.regs.mag16 = t.regs.mag16 ∨ (t'.regs.mag16 = r.mag16 ∧ t.regs.mag16 = s.regs.mag16)) ∧
    (t'.regs.temp = t.regs.temp ∨ (t'.regs.temp = r.temp ∧ t.regs.temp = s.regs.temp)) ∧
    (t'.flags.absent = t.flags.absent ∨ (t'.flags.absent = f.absent ∧ t.flags.absent = s.flags.absent)) ∧
    (t'.flags.sign = t.flags.sign ∨ (t'.flags.sign = f.sign ∧ t.flags.sign = s.flags.sign))

/-- 44_command_sequences.md R196 (marked derived): whatever the answers, StartConversion makes 17 `L` and 17 `Z`,
GetTemperature 50 and 50, and its samples are those of the two polls and 16 more. -/
def Obligations.CompositesMakeExactlyTheirCalls : Prop :=
  ∀ (arg : Byte) (s : State),
    (∃ t tr, exec (.opStartConversion arg) s = .next t ∧ t.trace = s.trace ++ tr ∧
      tr.count .L = 17 ∧ tr.count .Z = 17 ∧
      tr.count (.S true) + tr.count (.S false) = (pollOutcome s.env 0).answers) ∧
    (∃ t tr, exec (.opGetTemperature arg) s = .next t ∧ t.trace = s.trace ++ tr ∧
      tr.count .L = 50 ∧ tr.count .Z = 50 ∧
      tr.count (.S true) + tr.count (.S false) = (pollOutcome s.env 0).answers +
        (pollOutcome s.env (pollOutcome s.env 0).answers).answers + 16)

/-- 70_reset_and_hazards.md R278 (marked derived): the least and greatest nominal time of each operation, that the time
is the sum of the trace's delays, and how long the line is driven low. -/
def Obligations.DurationsOfTheOperations : Prop :=
  ∀ (i : Instr) (s : State) (lo hi low : Nat) (arg : Byte),
    (i = .opInitialize arg ∧ lo = 765 ∧ hi = 1204 ∧ low = 750) ∨ (i = .opReset arg ∧ lo = 765 ∧ hi = 765 ∧ low = 750) ∨
    (i = .opCheckPresence arg ∧ lo = 0 ∧ hi = 439 ∧ low = 0) ∨ (i = .opReadBit arg ∧ lo = 64 ∧ hi = 64 ∧ low = 2) ∨
    (i = .opReadByte arg ∧ lo = 512 ∧ hi = 512 ∧ low = 16) ∨
    (i = .opWriteByte arg ∧ lo = 496 ∧ hi = 496 ∧
      low = 480 - 58 * ((List.range 8).countP fun k => arg.getLsbD k)) ∨
    (i = .opStartConversion arg ∧ lo = 1757 ∧ hi = 2196 ∧ low = 1362) ∨
    (i = .opGetTemperature arg ∧ lo = 4538 ∧ hi = 5416 ∧ low = 2524) →
    ∃ t tr, exec i s = .next t ∧ t.trace = s.trace ++ tr ∧ t.obs.now = s.obs.now + traceTime tr ∧
      lo ≤ traceTime tr ∧ traceTime tr ≤ hi ∧ lowTime false tr = low

/-- 41_reset_presence.md R139 (marked derived): the poll takes at most 440 samples and 439 microseconds, and both
bounds are reached. -/
def Obligations.PresencePollIsBounded : Prop :=
  (∀ (e : Env) (k : Nat), (pollOutcome e k).answers ≤ 440 ∧ (pollOutcome e k).time ≤ 439) ∧
  (∀ (arg : Byte) (s : State), ∃ t, exec (.opCheckPresence arg) s = .next t ∧
    t.env.draws ≤ s.env.draws + 440 ∧ t.obs.now ≤ s.obs.now + 439) ∧
  ∃ (s t : State), exec (.opCheckPresence 0) s = .next t ∧ t.env.draws = s.env.draws + 440 ∧
    t.obs.now = s.obs.now + 439

/-- The presence poll on streams written out (the rows of the table of 41_reset_presence.md R136): 200 highs are a
timeout of kind A; a < 200 highs, a low, b < 240 lows and a high are a presence pulse; a < 200 highs, a low and 240
lows are a timeout of kind B; what follows is not asked for. -/
def Obligations.CheckPresenceOnWrittenStreams : Prop :=
  ∀ (arg : Byte) (s : State) (rest : List Bool) (a b : Nat),
    (s.env.dqIn = List.replicate 200 true ++ rest → ∃ t, exec (.opCheckPresence arg) s = .next t ∧
      t.flags.absent = true ∧ t.obs.now = s.obs.now + 200 ∧ t.env.dqIn = rest) ∧
    (a < 200 → b < 240 → s.env.dqIn = List.replicate a true ++ [false] ++ List.replicate b false ++ [true] ++ rest →
      ∃ t, exec (.opCheckPresence arg) s = .next t ∧ t.flags.absent = false ∧
        t.obs.now = s.obs.now + (a + b) ∧ t.env.dqIn = rest) ∧
    (a < 200 → s.env.dqIn = List.replicate a true ++ [false] ++ List.replicate 240 false ++ rest →
      ∃ t, exec (.opCheckPresence arg) s = .next t ∧ t.flags.absent = true ∧
        t.obs.now = s.obs.now + (a + 240) ∧ t.env.dqIn = rest)

/-- 44_command_sequences.md R195 (marked derived): the phases of GetTemperature, each with the nominal time at which it
ends, c1 and c2 being the two poll times. -/
def Obligations.TimelineOfGetTemperature : Prop :=
  ∀ (s : State) (w : CommandWord) (c1 c2 : Nat), AtRest s → opOf w = 7 →
    c1 = (pollOutcome s.env 0).time → c2 = (pollOutcome s.env (pollOutcome s.env 0).answers).time →
    ∀ (k : Nat) (cs : CsState) (ends : Nat),
      (k, cs, ends) ∈ [(0, CsState.rp1, 0), (1, .skip1, 765 + c1), (2, .conv, 1261 + c1), (3, .rp2, 1757 + c1),
        (4, .skip2, 2522 + c1 + c2), (5, .rdsp, 3018 + c1 + c2), (6, .rdlo, 3514 + c1 + c2),
        (7, .rdhi, 4026 + c1 + c2), (8, .dec, 4538 + c1 + c2), (9, .idle, 4538 + c1 + c2)] →
      ∃ t, steps (1 + k) (watched .byPhase [presenting w] s) = .next t ∧ t.seq.cs = cs ∧
        t.obs.now = s.obs.now + ends

/-! ### The result ports and when the host may read them (70_reset_and_hazards.md R274, 10_state.md R39) -/

/-- After hardware reset no result port may be read; while BUSY = 1 none may; and when an idle engine runs a command
for a host that has noted nothing, exactly the ports of R39's column "valid when" may be read after it and show what
the host then notes. That hardware reset makes the ports no results is the spec's note in R46 (log 16). -/
def Obligations.ResultPortsAreReadableAfterTheirOperations : Prop :=
  (∀ (s t : State) (r : Results) (p : ResultPort), s.env.present.rst = true → step s = .next t →
    ¬MayReadResults p (r.afterStep s t) t) ∧
  (∀ (s : State) (r : Results) (p : ResultPort), s.flags.busy = true → ¬MayReadResults p r s) ∧
  ∀ (s : State) (w : CommandWord), s.flags.busy = false →
    ∃ (t : State) (r : Results), step (watched .byOperation [presenting w] s) = .next t ∧
      r = Results.nothing.afterStep (watched .byOperation [presenting w] s) t ∧
      (MayReadResults .absent r t ↔ opOf w = 0 ∨ opOf w = 2 ∨ opOf w = 6 ∨ opOf w = 7) ∧
      (MayReadResults .rdata r t ↔ opOf w = 3 ∨ opOf w = 4) ∧ (MayReadResults .temp r t ↔ opOf w = 7) ∧
      ResultsHeld r t

/-- Every step keeps the host's notes true: a noted value stays on its port until an operation that writes the port
runs (R39, "until the next one"; R44, retained). -/
def Obligations.StepKeepsResultsHeld : Prop :=
  ∀ (s t : State) (r : Results), Legal s → ResultsHeld r s → step s = .next t → ResultsHeld (r.afterStep s t) t

/-- In every run after hardware reset, whatever the host presents, the line answers and the view, a port that may be
read shows the value it had at the last completion of an operation that writes it (R274, R39). -/
def Obligations.ReadableResultIsTheLastOneWritten : Prop :=
  ∀ (e : Env) (n : Nat), ∃ (t : State) (r : Results),
    stepsNoting n { State.reset with env := e } .nothing = .next (t, r) ∧
    (MayReadResults .absent r t → r.absent = some t.ports.absent) ∧
    (MayReadResults .rdata r t → r.rdata = some t.ports.rdata) ∧
    (MayReadResults .temp r t → r.temp = some t.ports.temp)

/-! ### Bit order and round trip -/

/-- 43_byte_transactions.md R174 (marked derived): ReadByte right after WriteByte(v) on the loopback fixture gives v.
The fixture is test apparatus (95_test_vectors.md section 2). -/
def Obligations.LoopbackReturnsTheByte : Prop :=
  ∀ (v arg : Byte) (s : State) (rest : List Bool), ∃ t u,
    exec (.opWriteByte v) s = .next t ∧
    exec (.opReadByte arg) { t with env.dqIn := loopbackQueue (t.trace.drop s.trace.length) ++ rest } = .next u ∧
    u.regs.rdata = v ∧ u.env.dqIn = rest

/-- 20_memory.md R64: eight ReadBit operations see the bits of one ReadByte, bit k being the result of the (k+1)-th
(that sentence is marked derived). -/
def Obligations.EightReadBitsSeeTheByte : Prop :=
  ∀ (arg : Byte) (s : State) (k : Nat), k < 8 → ∃ t u,
    exec (.opReadByte arg) s = .next t ∧ execAll (List.replicate (k + 1) (.opReadBit arg)) s = .next u ∧
    u.regs.rdata = (if t.regs.rdata.getLsbD k = true then 1 else 0) ∧ u.regs.shreg = s.regs.shreg ∧
    u.obs.now = s.obs.now + 64 * (k + 1)

/-! ### The temperature decoder -/

/-- 45_temperature_decode.md R214 with R210 and R211: at the start of state DEC, one step of zero nominal time writes
SIGN, MAG16 and TEMP from HI and LO, takes no sample, touches no line, changes nothing else, and completes. -/
def Obligations.DecodeIsTheClosedForm : Prop :=
  ∀ s : State, s.env.present.rst = false → s.flags.busy = true → atPhaseStart s = true → s.seq.cs = .dec →
    ∃ t, step s = .next t ∧ (t.flags.sign = true ↔ 7 < s.regs.hi.toNat) ∧
      t.regs.mag16.toNat = (if t.flags.sign = true then 256 * (255 - s.regs.hi.toNat) + (255 - s.regs.lo.toNat)
        else 256 * s.regs.hi.toNat + s.regs.lo.toNat) ∧
      t.regs.temp.toInt = (if t.flags.sign = true then -((t.regs.mag16.toNat * 5 / 8 : Nat) : Int)
        else ((t.regs.mag16.toNat * 5 / 8 : Nat) : Int)) ∧
      t.regs.temp.toInt = decodedTenths s.regs.hi s.regs.lo ∧
      t.regs = { s.regs with mag16 := t.regs.mag16, temp := t.regs.temp } ∧
      t.flags = { s.flags with busy := false, sign := t.flags.sign } ∧ t.obs = { s.obs with done := true } ∧
      t.env = { s.env with host := s.env.host.tail } ∧ t.seq = { s.seq with cs := .idle }

/-- 45_temperature_decode.md R215 (marked derived): every result lies in -39679 to +1279, both ends are reached at raw
0x0800 and 0x07FF, and it is below -32768 exactly for raw 0x0800 to 0x3330. -/
def Obligations.DecodeRange : Prop :=
  (∀ hi lo : Byte, -39679 ≤ (decodeTempWord hi lo).toInt ∧ (decodeTempWord hi lo).toInt ≤ 1279 ∧
    ((decodeTempWord hi lo).toInt < -32768 ↔
      0x0800 ≤ 256 * hi.toNat + lo.toNat ∧ 256 * hi.toNat + lo.toNat ≤ 0x3330)) ∧
  (decodeTempWord 0x08 0x00).toInt = -39679 ∧ (decodeTempWord 0x07 0xFF).toInt = 1279

/-- 45_temperature_decode.md R217 (marked derived): the raw value a two's-complement reader calls -k decodes to
-floor(5 (k - 1) / 8): no one is added after the inversion. -/
def Obligations.DecodeAddsNoOne : Prop :=
  ∀ (hi lo : Byte) (k : Nat), 1 ≤ k → k ≤ 63488 → 256 * hi.toNat + lo.toNat = 65536 - k →
    (decodeTempWord hi lo).toInt = -((5 * (k - 1) / 8 : Nat) : Int)

/-- 44_command_sequences.md R194, corner case, and 70_reset_and_hazards.md R276 (marked derived): if every answer is
high, GetTemperature times out twice, LO = HI = 0xFF, TEMP = 0, and only ABSENT = 1 tells. -/
def Obligations.NoDeviceReadsZero : Prop :=
  ∀ (arg : Byte) (s : State), (∀ k, k < 416 → s.env.answer k = true) →
    ∃ t, exec (.opGetTemperature arg) s = .next t ∧ t.flags.absent = true ∧ t.regs.lo = 0xFF ∧ t.regs.hi = 0xFF ∧
      t.flags.sign = true ∧ t.regs.mag16 = 0 ∧ t.regs.temp = 0 ∧ t.obs.now = s.obs.now + 4938
end

