-- ==== Sys2Proof/Laws/Decode.lean ====
section
/-! SUPPORT. The fields of a command word, and the eight cases of the command decoder. -/

namespace Sys2Proof

theorem opOf_commandWord (op : OpCode) (arg : Byte) : opOf (commandWord op arg) = op := by
  revert op arg; decide +kernel

theorem argOf_commandWord (op : OpCode) (arg : Byte) : argOf (commandWord op arg) = arg := by
  revert op arg; decide +kernel

theorem commandWord_fields (w : CommandWord) : commandWord (opOf w) (argOf w) = w := by
  revert w; decide +kernel

/-- The command decoder, one case per operation code (30_encoding.md R81). -/
theorem decodeCommand_cases (w : CommandWord) :
    (opOf w = 0 ∧ decodeCommand w = .opInitialize (argOf w)) ∨ (opOf w = 1 ∧ decodeCommand w = .opReset (argOf w)) ∨
    (opOf w = 2 ∧ decodeCommand w = .opCheckPresence (argOf w)) ∨
    (opOf w = 3 ∧ decodeCommand w = .opReadBit (argOf w)) ∨ (opOf w = 4 ∧ decodeCommand w = .opReadByte (argOf w)) ∨
    (opOf w = 5 ∧ decodeCommand w = .opWriteByte (argOf w)) ∨
    (opOf w = 6 ∧ decodeCommand w = .opStartConversion (argOf w)) ∨
    (opOf w = 7 ∧ decodeCommand w = .opGetTemperature (argOf w)) := by
  have codes : ∀ op : OpCode,
      op = 0 ∨ op = 1 ∨ op = 2 ∨ op = 3 ∨ op = 4 ∨ op = 5 ∨ op = 6 ∨ op = 7 := by decide
  rcases codes (opOf w) with h | h | h | h | h | h | h | h <;> simp [decodeCommand, h]

end Sys2Proof
end

