-- ==== Sys2Proof/Laws/PerInstr.lean ====
section
/-! SUPPORT. A statement made for every instruction as syntax, one lemma for each constructor. -/

namespace Sys2Proof.Laws.MatchesRow

/-- The word of `i` is covered by exactly one row of the opcode table, the row of `i`'s mnemonic, whatever its operand
(30_encoding.md R81 to R83, R91, R92). -/
def Statement (i : Instr) : Prop :=
  (opcodeRows.filter fun r => r.covers (encode i)).map OpcodeRow.mnemonic = [i.mnemonic]

theorem opInitialize : ∀ a : Byte, Statement (.opInitialize a) := by unfold Statement; decide +kernel
theorem opReset : ∀ a : Byte, Statement (.opReset a) := by unfold Statement; decide +kernel
theorem opCheckPresence : ∀ a : Byte, Statement (.opCheckPresence a) := by unfold Statement; decide +kernel
theorem opReadBit : ∀ a : Byte, Statement (.opReadBit a) := by unfold Statement; decide +kernel
theorem opReadByte : ∀ a : Byte, Statement (.opReadByte a) := by unfold Statement; decide +kernel
theorem opWriteByte : ∀ a : Byte, Statement (.opWriteByte a) := by unfold Statement; decide +kernel
theorem opStartConversion : ∀ a : Byte, Statement (.opStartConversion a) := by unfold Statement; decide +kernel
theorem opGetTemperature : ∀ a : Byte, Statement (.opGetTemperature a) := by unfold Statement; decide +kernel
theorem wireSkipRom : Statement .wireSkipRom := by unfold Statement; decide +kernel
theorem wireConvertT : Statement .wireConvertT := by unfold Statement; decide +kernel
theorem wireReadScratchpad : Statement .wireReadScratchpad := by unfold Statement; decide +kernel

end Sys2Proof.Laws.MatchesRow
end

