-- ==== Sys2Proof/Laws/Results.lean ====
section
/-! SUPPORT. What the host's notes of results are after a step (Safety.lean). -/

namespace Sys2Proof

open Sys2Proof.Machine

@[simp] theorem Results.known_nothing (p : ResultPort) : Results.nothing.known p = false := by cases p <;> rfl

/-- A port is known after a completion iff it was, or the operation writes it. -/
@[simp] theorem Results.known_note (r : Results) (t : State) (p : ResultPort) :
    (r.note t).known p = (p.writtenBy t.seq.opr || r.known p) := by
  cases p <;> simp only [Results.note, Results.known] <;> split <;> simp_all

theorem Results.afterStep_reset {r : Results} {s t : State} (h : s.env.present.rst = true) :
    r.afterStep s t = .nothing := by simp [Results.afterStep, h]

theorem Results.afterStep_done {r : Results} {s t : State} (h : s.env.present.rst = false) (hd : t.obs.done = true) :
    r.afterStep s t = r.note t := by simp [Results.afterStep, h, hd]

theorem Results.afterStep_not_done {r : Results} {s t : State} (h : s.env.present.rst = false)
    (hd : t.obs.done = false) : r.afterStep s t = r := by simp [Results.afterStep, h, hd]

/-- Notes that say nothing are held in every state. -/
theorem resultsHeld_nothing (s : State) : ResultsHeld .nothing s := by
  constructor <;> intro x h <;> cases h

/-- Of an engine that is not busy, every noted value is on its port. -/
theorem ResultsHeld.of_idle {r : Results} {s : State} (h : ResultsHeld r s) (hb : s.flags.busy = false) :
    (∀ x, r.absent = some x → s.ports.absent = x) ∧ (∀ x, r.rdata = some x → s.ports.rdata = x) ∧
    (∀ x, r.temp = some x → s.ports.temp = x) := by
  refine ⟨fun x hx => ?_, fun x hx => ?_, fun x hx => ?_⟩
  · exact (h.absent x hx).resolve_right (by simp [hb])
  · exact (h.rdata x hx).resolve_right (by simp [hb])
  · exact (h.temp x hx).resolve_right (by simp [hb])

end Sys2Proof
end

