-- ==== Sys2Proof/Laws/State.lean ====
section
/-! SUPPORT. One lemma per field per update: what each named operation leaves in each field, or in a whole group of
fields it does not touch. -/

namespace Sys2Proof.Machine

/-! ### record -/

@[simp] theorem record_regs (e : Event) (s : State) : (record e s).regs = s.regs := rfl
@[simp] theorem record_flags (e : Event) (s : State) : (record e s).flags = s.flags := rfl
@[simp] theorem record_seq (e : Event) (s : State) : (record e s).seq = s.seq := rfl
@[simp] theorem record_env (e : Event) (s : State) : (record e s).env = s.env := rfl
@[simp] theorem record_log (e : Event) (s : State) : (record e s).obs.log = e :: s.obs.log := rfl
@[simp] theorem record_now (e : Event) (s : State) : (record e s).obs.now = s.obs.now := rfl
@[simp] theorem record_done (e : Event) (s : State) : (record e s).obs.done = s.obs.done := rfl

/-! ### driveLow -/

@[simp] theorem driveLow_regs (s : State) : (driveLow s).regs = s.regs := rfl
@[simp] theorem driveLow_busy (s : State) : (driveLow s).flags.busy = s.flags.busy := rfl
@[simp] theorem driveLow_absent (s : State) : (driveLow s).flags.absent = s.flags.absent := rfl
@[simp] theorem driveLow_sign (s : State) : (driveLow s).flags.sign = s.flags.sign := rfl
@[simp] theorem driveLow_outLow (s : State) : (driveLow s).flags.outLow = true := rfl
@[simp] theorem driveLow_seq (s : State) : (driveLow s).seq = s.seq := rfl
@[simp] theorem driveLow_env (s : State) : (driveLow s).env = s.env := rfl
@[simp] theorem driveLow_log (s : State) : (driveLow s).obs.log = .L :: s.obs.log := rfl
@[simp] theorem driveLow_now (s : State) : (driveLow s).obs.now = s.obs.now := rfl
@[simp] theorem driveLow_done (s : State) : (driveLow s).obs.done = s.obs.done := rfl

/-! ### release -/

@[simp] theorem release_regs (s : State) : (release s).regs = s.regs := rfl
@[simp] theorem release_busy (s : State) : (release s).flags.busy = s.flags.busy := rfl
@[simp] theorem release_absent (s : State) : (release s).flags.absent = s.flags.absent := rfl
@[simp] theorem release_sign (s : State) : (release s).flags.sign = s.flags.sign := rfl
@[simp] theorem release_outLow (s : State) : (release s).flags.outLow = false := rfl
@[simp] theorem release_seq (s : State) : (release s).seq = s.seq := rfl
@[simp] theorem release_env (s : State) : (release s).env = s.env := rfl
@[simp] theorem release_log (s : State) : (release s).obs.log = .Z :: s.obs.log := rfl
@[simp] theorem release_now (s : State) : (release s).obs.now = s.obs.now := rfl
@[simp] theorem release_done (s : State) : (release s).obs.done = s.obs.done := rfl

/-! ### sampled -/

@[simp] theorem sampled_regs (s : State) : (sampled s).regs = s.regs := rfl
@[simp] theorem sampled_flags (s : State) : (sampled s).flags = s.flags := rfl
@[simp] theorem sampled_seq (s : State) : (sampled s).seq = s.seq := rfl
@[simp] theorem sampled_env (s : State) : (sampled s).env = s.env.consume 1 := rfl
@[simp] theorem sampled_log (s : State) : (sampled s).obs.log = .S (s.env.answer 0) :: s.obs.log := rfl
@[simp] theorem sampled_now (s : State) : (sampled s).obs.now = s.obs.now := rfl
@[simp] theorem sampled_done (s : State) : (sampled s).obs.done = s.obs.done := rfl

/-! ### setCs -/

@[simp] theorem setCs_regs (c : CsState) (s : State) : (setCs c s).regs = s.regs := rfl
@[simp] theorem setCs_flags (c : CsState) (s : State) : (setCs c s).flags = s.flags := rfl
@[simp] theorem setCs_opr (c : CsState) (s : State) : (setCs c s).seq.opr = s.seq.opr := rfl
@[simp] theorem setCs_cs (c : CsState) (s : State) : (setCs c s).seq.cs = c := rfl
@[simp] theorem setCs_rp (c : CsState) (s : State) : (setCs c s).seq.rp = s.seq.rp := rfl
@[simp] theorem setCs_bs (c : CsState) (s : State) : (setCs c s).seq.bs = s.seq.bs := rfl
@[simp] theorem setCs_byt (c : CsState) (s : State) : (setCs c s).seq.byt = s.seq.byt := rfl
@[simp] theorem setCs_bitcnt (c : CsState) (s : State) : (setCs c s).seq.bitcnt = s.seq.bitcnt := rfl
@[simp] theorem setCs_poll (c : CsState) (s : State) : (setCs c s).seq.poll = s.seq.poll := rfl
@[simp] theorem setCs_dly (c : CsState) (s : State) : (setCs c s).seq.dly = s.seq.dly := rfl
@[simp] theorem setCs_slotBit (c : CsState) (s : State) : (setCs c s).seq.slotBit = s.seq.slotBit := rfl
@[simp] theorem setCs_env (c : CsState) (s : State) : (setCs c s).env = s.env := rfl
@[simp] theorem setCs_obs (c : CsState) (s : State) : (setCs c s).obs = s.obs := rfl

/-! ### setRp -/

@[simp] theorem setRp_regs (r : RpState) (s : State) : (setRp r s).regs = s.regs := rfl
@[simp] theorem setRp_flags (r : RpState) (s : State) : (setRp r s).flags = s.flags := rfl
@[simp] theorem setRp_opr (r : RpState) (s : State) : (setRp r s).seq.opr = s.seq.opr := rfl
@[simp] theorem setRp_cs (r : RpState) (s : State) : (setRp r s).seq.cs = s.seq.cs := rfl
@[simp] theorem setRp_rp (r : RpState) (s : State) : (setRp r s).seq.rp = r := rfl
@[simp] theorem setRp_bs (r : RpState) (s : State) : (setRp r s).seq.bs = s.seq.bs := rfl
@[simp] theorem setRp_byt (r : RpState) (s : State) : (setRp r s).seq.byt = s.seq.byt := rfl
@[simp] theorem setRp_bitcnt (r : RpState) (s : State) : (setRp r s).seq.bitcnt = s.seq.bitcnt := rfl
@[simp] theorem setRp_poll (r : RpState) (s : State) : (setRp r s).seq.poll = s.seq.poll := rfl
@[simp] theorem setRp_dly (r : RpState) (s : State) : (setRp r s).seq.dly = s.seq.dly := rfl
@[simp] theorem setRp_slotBit (r : RpState) (s : State) : (setRp r s).seq.slotBit = s.seq.slotBit := rfl
@[simp] theorem setRp_env (r : RpState) (s : State) : (setRp r s).env = s.env := rfl
@[simp] theorem setRp_obs (r : RpState) (s : State) : (setRp r s).obs = s.obs := rfl

/-! ### setBs -/

@[simp] theorem setBs_regs (b : BsState) (s : State) : (setBs b s).regs = s.regs := rfl
@[simp] theorem setBs_flags (b : BsState) (s : State) : (setBs b s).flags = s.flags := rfl
@[simp] theorem setBs_opr (b : BsState) (s : State) : (setBs b s).seq.opr = s.seq.opr := rfl
@[simp] theorem setBs_cs (b : BsState) (s : State) : (setBs b s).seq.cs = s.seq.cs := rfl
@[simp] theorem setBs_rp (b : BsState) (s : State) : (setBs b s).seq.rp = s.seq.rp := rfl
@[simp] theorem setBs_bs (b : BsState) (s : State) : (setBs b s).seq.bs = b := rfl
@[simp] theorem setBs_byt (b : BsState) (s : State) : (setBs b s).seq.byt = s.seq.byt := rfl
@[simp] theorem setBs_bitcnt (b : BsState) (s : State) : (setBs b s).seq.bitcnt = s.seq.bitcnt := rfl
@[simp] theorem setBs_poll (b : BsState) (s : State) : (setBs b s).seq.poll = s.seq.poll := rfl
@[simp] theorem setBs_dly (b : BsState) (s : State) : (setBs b s).seq.dly = s.seq.dly := rfl
@[simp] theorem setBs_slotBit (b : BsState) (s : State) : (setBs b s).seq.slotBit = s.seq.slotBit := rfl
@[simp] theorem setBs_env (b : BsState) (s : State) : (setBs b s).env = s.env := rfl
@[simp] theorem setBs_obs (b : BsState) (s : State) : (setBs b s).obs = s.obs := rfl

/-! ### setByt -/

@[simp] theorem setByt_regs (b : ByState) (s : State) : (setByt b s).regs = s.regs := rfl
@[simp] theorem setByt_flags (b : ByState) (s : State) : (setByt b s).flags = s.flags := rfl
@[simp] theorem setByt_opr (b : ByState) (s : State) : (setByt b s).seq.opr = s.seq.opr := rfl
@[simp] theorem setByt_cs (b : ByState) (s : State) : (setByt b s).seq.cs = s.seq.cs := rfl
@[simp] theorem setByt_rp (b : ByState) (s : State) : (setByt b s).seq.rp = s.seq.rp := rfl
@[simp] theorem setByt_bs (b : ByState) (s : State) : (setByt b s).seq.bs = s.seq.bs := rfl
@[simp] theorem setByt_byt (b : ByState) (s : State) : (setByt b s).seq.byt = b := rfl
@[simp] theorem setByt_bitcnt (b : ByState) (s : State) : (setByt b s).seq.bitcnt = s.seq.bitcnt := rfl
@[simp] theorem setByt_poll (b : ByState) (s : State) : (setByt b s).seq.poll = s.seq.poll := rfl
@[simp] theorem setByt_dly (b : ByState) (s : State) : (setByt b s).seq.dly = s.seq.dly := rfl
@[simp] theorem setByt_slotBit (b : ByState) (s : State) : (setByt b s).seq.slotBit = s.seq.slotBit := rfl
@[simp] theorem setByt_env (b : ByState) (s : State) : (setByt b s).env = s.env := rfl
@[simp] theorem setByt_obs (b : ByState) (s : State) : (setByt b s).obs = s.obs := rfl

/-! ### setBitcnt -/

@[simp] theorem setBitcnt_regs (n : BitVec 4) (s : State) : (setBitcnt n s).regs = s.regs := rfl
@[simp] theorem setBitcnt_flags (n : BitVec 4) (s : State) : (setBitcnt n s).flags = s.flags := rfl
@[simp] theorem setBitcnt_opr (n : BitVec 4) (s : State) : (setBitcnt n s).seq.opr = s.seq.opr := rfl
@[simp] theorem setBitcnt_cs (n : BitVec 4) (s : State) : (setBitcnt n s).seq.cs = s.seq.cs := rfl
@[simp] theorem setBitcnt_rp (n : BitVec 4) (s : State) : (setBitcnt n s).seq.rp = s.seq.rp := rfl
@[simp] theorem setBitcnt_bs (n : BitVec 4) (s : State) : (setBitcnt n s).seq.bs = s.seq.bs := rfl
@[simp] theorem setBitcnt_byt (n : BitVec 4) (s : State) : (setBitcnt n s).seq.byt = s.seq.byt := rfl
@[simp] theorem setBitcnt_bitcnt (n : BitVec 4) (s : State) : (setBitcnt n s).seq.bitcnt = n := rfl
@[simp] theorem setBitcnt_poll (n : BitVec 4) (s : State) : (setBitcnt n s).seq.poll = s.seq.poll := rfl
@[simp] theorem setBitcnt_dly (n : BitVec 4) (s : State) : (setBitcnt n s).seq.dly = s.seq.dly := rfl
@[simp] theorem setBitcnt_slotBit (n : BitVec 4) (s : State) : (setBitcnt n s).seq.slotBit = s.seq.slotBit := rfl
@[simp] theorem setBitcnt_env (n : BitVec 4) (s : State) : (setBitcnt n s).env = s.env := rfl
@[simp] theorem setBitcnt_obs (n : BitVec 4) (s : State) : (setBitcnt n s).obs = s.obs := rfl

/-! ### setPoll -/

@[simp] theorem setPoll_regs (n : BitVec 8) (s : State) : (setPoll n s).regs = s.regs := rfl
@[simp] theorem setPoll_flags (n : BitVec 8) (s : State) : (setPoll n s).flags = s.flags := rfl
@[simp] theorem setPoll_opr (n : BitVec 8) (s : State) : (setPoll n s).seq.opr = s.seq.opr := rfl
@[simp] theorem setPoll_cs (n : BitVec 8) (s : State) : (setPoll n s).seq.cs = s.seq.cs := rfl
@[simp] theorem setPoll_rp (n : BitVec 8) (s : State) : (setPoll n s).seq.rp = s.seq.rp := rfl
@[simp] theorem setPoll_bs (n : BitVec 8) (s : State) : (setPoll n s).seq.bs = s.seq.bs := rfl
@[simp] theorem setPoll_byt (n : BitVec 8) (s : State) : (setPoll n s).seq.byt = s.seq.byt := rfl
@[simp] theorem setPoll_bitcnt (n : BitVec 8) (s : State) : (setPoll n s).seq.bitcnt = s.seq.bitcnt := rfl
@[simp] theorem setPoll_poll (n : BitVec 8) (s : State) : (setPoll n s).seq.poll = n := rfl
@[simp] theorem setPoll_dly (n : BitVec 8) (s : State) : (setPoll n s).seq.dly = s.seq.dly := rfl
@[simp] theorem setPoll_slotBit (n : BitVec 8) (s : State) : (setPoll n s).seq.slotBit = s.seq.slotBit := rfl
@[simp] theorem setPoll_env (n : BitVec 8) (s : State) : (setPoll n s).env = s.env := rfl
@[simp] theorem setPoll_obs (n : BitVec 8) (s : State) : (setPoll n s).obs = s.obs := rfl

/-! ### loadDelay -/

@[simp] theorem loadDelay_regs (n : Nat) (s : State) : (loadDelay n s).regs = s.regs := rfl
@[simp] theorem loadDelay_flags (n : Nat) (s : State) : (loadDelay n s).flags = s.flags := rfl
@[simp] theorem loadDelay_opr (n : Nat) (s : State) : (loadDelay n s).seq.opr = s.seq.opr := rfl
@[simp] theorem loadDelay_cs (n : Nat) (s : State) : (loadDelay n s).seq.cs = s.seq.cs := rfl
@[simp] theorem loadDelay_rp (n : Nat) (s : State) : (loadDelay n s).seq.rp = s.seq.rp := rfl
@[simp] theorem loadDelay_bs (n : Nat) (s : State) : (loadDelay n s).seq.bs = s.seq.bs := rfl
@[simp] theorem loadDelay_byt (n : Nat) (s : State) : (loadDelay n s).seq.byt = s.seq.byt := rfl
@[simp] theorem loadDelay_bitcnt (n : Nat) (s : State) : (loadDelay n s).seq.bitcnt = s.seq.bitcnt := rfl
@[simp] theorem loadDelay_poll (n : Nat) (s : State) : (loadDelay n s).seq.poll = s.seq.poll := rfl
@[simp] theorem loadDelay_dly (n : Nat) (s : State) : (loadDelay n s).seq.dly = BitVec.ofNat 10 n := rfl
@[simp] theorem loadDelay_slotBit (n : Nat) (s : State) : (loadDelay n s).seq.slotBit = s.seq.slotBit := rfl
@[simp] theorem loadDelay_env (n : Nat) (s : State) : (loadDelay n s).env = s.env := rfl
@[simp] theorem loadDelay_obs (n : Nat) (s : State) : (loadDelay n s).obs = s.obs := rfl

/-! ### setSlotBit -/

@[simp] theorem setSlotBit_regs (b : Option Bool) (s : State) : (setSlotBit b s).regs = s.regs := rfl
@[simp] theorem setSlotBit_flags (b : Option Bool) (s : State) : (setSlotBit b s).flags = s.flags := rfl
@[simp] theorem setSlotBit_opr (b : Option Bool) (s : State) : (setSlotBit b s).seq.opr = s.seq.opr := rfl
@[simp] theorem setSlotBit_cs (b : Option Bool) (s : State) : (setSlotBit b s).seq.cs = s.seq.cs := rfl
@[simp] theorem setSlotBit_rp (b : Option Bool) (s : State) : (setSlotBit b s).seq.rp = s.seq.rp := rfl
@[simp] theorem setSlotBit_bs (b : Option Bool) (s : State) : (setSlotBit b s).seq.bs = s.seq.bs := rfl
@[simp] theorem setSlotBit_byt (b : Option Bool) (s : State) : (setSlotBit b s).seq.byt = s.seq.byt := rfl
@[simp] theorem setSlotBit_bitcnt (b : Option Bool) (s : State) : (setSlotBit b s).seq.bitcnt = s.seq.bitcnt := rfl
@[simp] theorem setSlotBit_poll (b : Option Bool) (s : State) : (setSlotBit b s).seq.poll = s.seq.poll := rfl
@[simp] theorem setSlotBit_dly (b : Option Bool) (s : State) : (setSlotBit b s).seq.dly = s.seq.dly := rfl
@[simp] theorem setSlotBit_slotBit (b : Option Bool) (s : State) : (setSlotBit b s).seq.slotBit = b := rfl
@[simp] theorem setSlotBit_env (b : Option Bool) (s : State) : (setSlotBit b s).env = s.env := rfl
@[simp] theorem setSlotBit_obs (b : Option Bool) (s : State) : (setSlotBit b s).obs = s.obs := rfl

/-! ### setShreg -/

@[simp] theorem setShreg_shreg (v : Byte) (s : State) : (setShreg v s).regs.shreg = v := rfl
@[simp] theorem setShreg_rdata (v : Byte) (s : State) : (setShreg v s).regs.rdata = s.regs.rdata := rfl
@[simp] theorem setShreg_lo (v : Byte) (s : State) : (setShreg v s).regs.lo = s.regs.lo := rfl
@[simp] theorem setShreg_hi (v : Byte) (s : State) : (setShreg v s).regs.hi = s.regs.hi := rfl
@[simp] theorem setShreg_mag16 (v : Byte) (s : State) : (setShreg v s).regs.mag16 = s.regs.mag16 := rfl
@[simp] theorem setShreg_temp (v : Byte) (s : State) : (setShreg v s).regs.temp = s.regs.temp := rfl
@[simp] theorem setShreg_flags (v : Byte) (s : State) : (setShreg v s).flags = s.flags := rfl
@[simp] theorem setShreg_seq (v : Byte) (s : State) : (setShreg v s).seq = s.seq := rfl
@[simp] theorem setShreg_env (v : Byte) (s : State) : (setShreg v s).env = s.env := rfl
@[simp] theorem setShreg_obs (v : Byte) (s : State) : (setShreg v s).obs = s.obs := rfl

/-! ### setRdata -/

@[simp] theorem setRdata_shreg (v : Byte) (s : State) : (setRdata v s).regs.shreg = s.regs.shreg := rfl
@[simp] theorem setRdata_rdata (v : Byte) (s : State) : (setRdata v s).regs.rdata = v := rfl
@[simp] theorem setRdata_lo (v : Byte) (s : State) : (setRdata v s).regs.lo = s.regs.lo := rfl
@[simp] theorem setRdata_hi (v : Byte) (s : State) : (setRdata v s).regs.hi = s.regs.hi := rfl
@[simp] theorem setRdata_mag16 (v : Byte) (s : State) : (setRdata v s).regs.mag16 = s.regs.mag16 := rfl
@[simp] theorem setRdata_temp (v : Byte) (s : State) : (setRdata v s).regs.temp = s.regs.temp := rfl
@[simp] theorem setRdata_flags (v : Byte) (s : State) : (setRdata v s).flags = s.flags := rfl
@[simp] theorem setRdata_seq (v : Byte) (s : State) : (setRdata v s).seq = s.seq := rfl
@[simp] theorem setRdata_env (v : Byte) (s : State) : (setRdata v s).env = s.env := rfl
@[simp] theorem setRdata_obs (v : Byte) (s : State) : (setRdata v s).obs = s.obs := rfl

/-! ### setLo -/

@[simp] theorem setLo_shreg (v : Byte) (s : State) : (setLo v s).regs.shreg = s.regs.shreg := rfl
@[simp] theorem setLo_rdata (v : Byte) (s : State) : (setLo v s).regs.rdata = s.regs.rdata := rfl
@[simp] theorem setLo_lo (v : Byte) (s : State) : (setLo v s).regs.lo = v := rfl
@[simp] theorem setLo_hi (v : Byte) (s : State) : (setLo v s).regs.hi = s.regs.hi := rfl
@[simp] theorem setLo_mag16 (v : Byte) (s : State) : (setLo v s).regs.mag16 = s.regs.mag16 := rfl
@[simp] theorem setLo_temp (v : Byte) (s : State) : (setLo v s).regs.temp = s.regs.temp := rfl
@[simp] theorem setLo_flags (v : Byte) (s : State) : (setLo v s).flags = s.flags := rfl
@[simp] theorem setLo_seq (v : Byte) (s : State) : (setLo v s).seq = s.seq := rfl
@[simp] theorem setLo_env (v : Byte) (s : State) : (setLo v s).env = s.env := rfl
@[simp] theorem setLo_obs (v : Byte) (s : State) : (setLo v s).obs = s.obs := rfl

/-! ### setHi -/

@[simp] theorem setHi_shreg (v : Byte) (s : State) : (setHi v s).regs.shreg = s.regs.shreg := rfl
@[simp] theorem setHi_rdata (v : Byte) (s : State) : (setHi v s).regs.rdata = s.regs.rdata := rfl
@[simp] theorem setHi_lo (v : Byte) (s : State) : (setHi v s).regs.lo = s.regs.lo := rfl
@[simp] theorem setHi_hi (v : Byte) (s : State) : (setHi v s).regs.hi = v := rfl
@[simp] theorem setHi_mag16 (v : Byte) (s : State) : (setHi v s).regs.mag16 = s.regs.mag16 := rfl
@[simp] theorem setHi_temp (v : Byte) (s : State) : (setHi v s).regs.temp = s.regs.temp := rfl
@[simp] theorem setHi_flags (v : Byte) (s : State) : (setHi v s).flags = s.flags := rfl
@[simp] theorem setHi_seq (v : Byte) (s : State) : (setHi v s).seq = s.seq := rfl
@[simp] theorem setHi_env (v : Byte) (s : State) : (setHi v s).env = s.env := rfl
@[simp] theorem setHi_obs (v : Byte) (s : State) : (setHi v s).obs = s.obs := rfl

/-! ### setAbsent -/

@[simp] theorem setAbsent_regs (b : Bool) (s : State) : (setAbsent b s).regs = s.regs := rfl
@[simp] theorem setAbsent_busy (b : Bool) (s : State) : (setAbsent b s).flags.busy = s.flags.busy := rfl
@[simp] theorem setAbsent_absent (b : Bool) (s : State) : (setAbsent b s).flags.absent = b := rfl
@[simp] theorem setAbsent_sign (b : Bool) (s : State) : (setAbsent b s).flags.sign = s.flags.sign := rfl
@[simp] theorem setAbsent_outLow (b : Bool) (s : State) : (setAbsent b s).flags.outLow = s.flags.outLow := rfl
@[simp] theorem setAbsent_seq (b : Bool) (s : State) : (setAbsent b s).seq = s.seq := rfl
@[simp] theorem setAbsent_env (b : Bool) (s : State) : (setAbsent b s).env = s.env := rfl
@[simp] theorem setAbsent_obs (b : Bool) (s : State) : (setAbsent b s).obs = s.obs := rfl

/-! ### endPoll -/

@[simp] theorem endPoll_regs (b : Bool) (s : State) : (endPoll b s).regs = s.regs := rfl
@[simp] theorem endPoll_busy (b : Bool) (s : State) : (endPoll b s).flags.busy = s.flags.busy := rfl
@[simp] theorem endPoll_absent (b : Bool) (s : State) : (endPoll b s).flags.absent = b := rfl
@[simp] theorem endPoll_sign (b : Bool) (s : State) : (endPoll b s).flags.sign = s.flags.sign := rfl
@[simp] theorem endPoll_outLow (b : Bool) (s : State) : (endPoll b s).flags.outLow = s.flags.outLow := rfl
@[simp] theorem endPoll_opr (b : Bool) (s : State) : (endPoll b s).seq.opr = s.seq.opr := rfl
@[simp] theorem endPoll_cs (b : Bool) (s : State) : (endPoll b s).seq.cs = s.seq.cs := rfl
@[simp] theorem endPoll_rp (b : Bool) (s : State) : (endPoll b s).seq.rp = .idle := rfl
@[simp] theorem endPoll_bs (b : Bool) (s : State) : (endPoll b s).seq.bs = s.seq.bs := rfl
@[simp] theorem endPoll_byt (b : Bool) (s : State) : (endPoll b s).seq.byt = s.seq.byt := rfl
@[simp] theorem endPoll_bitcnt (b : Bool) (s : State) : (endPoll b s).seq.bitcnt = s.seq.bitcnt := rfl
@[simp] theorem endPoll_poll (b : Bool) (s : State) : (endPoll b s).seq.poll = 0 := rfl
@[simp] theorem endPoll_dly (b : Bool) (s : State) : (endPoll b s).seq.dly = s.seq.dly := rfl
@[simp] theorem endPoll_slotBit (b : Bool) (s : State) : (endPoll b s).seq.slotBit = s.seq.slotBit := rfl
@[simp] theorem endPoll_env (b : Bool) (s : State) : (endPoll b s).env = s.env := rfl
@[simp] theorem endPoll_obs (b : Bool) (s : State) : (endPoll b s).obs = s.obs := rfl

/-! ### accept -/

@[simp] theorem accept_shreg (op : OpCode) (arg : Byte) (s : State) : (accept op arg s).regs.shreg = loadOperand op arg s.regs.shreg := rfl
@[simp] theorem accept_rdata (op : OpCode) (arg : Byte) (s : State) : (accept op arg s).regs.rdata = s.regs.rdata := rfl
@[simp] theorem accept_lo (op : OpCode) (arg : Byte) (s : State) : (accept op arg s).regs.lo = s.regs.lo := rfl
@[simp] theorem accept_hi (op : OpCode) (arg : Byte) (s : State) : (accept op arg s).regs.hi = s.regs.hi := rfl
@[simp] theorem accept_mag16 (op : OpCode) (arg : Byte) (s : State) : (accept op arg s).regs.mag16 = s.regs.mag16 := rfl
@[simp] theorem accept_temp (op : OpCode) (arg : Byte) (s : State) : (accept op arg s).regs.temp = s.regs.temp := rfl
@[simp] theorem accept_busy (op : OpCode) (arg : Byte) (s : State) : (accept op arg s).flags.busy = true := rfl
@[simp] theorem accept_absent (op : OpCode) (arg : Byte) (s : State) : (accept op arg s).flags.absent = s.flags.absent := rfl
@[simp] theorem accept_sign (op : OpCode) (arg : Byte) (s : State) : (accept op arg s).flags.sign = s.flags.sign := rfl
@[simp] theorem accept_outLow (op : OpCode) (arg : Byte) (s : State) : (accept op arg s).flags.outLow = s.flags.outLow := rfl
@[simp] theorem accept_opr (op : OpCode) (arg : Byte) (s : State) : (accept op arg s).seq.opr = op := rfl
@[simp] theorem accept_cs (op : OpCode) (arg : Byte) (s : State) : (accept op arg s).seq.cs = csAfterAccept op := rfl
@[simp] theorem accept_rp (op : OpCode) (arg : Byte) (s : State) : (accept op arg s).seq.rp = s.seq.rp := rfl
@[simp] theorem accept_bs (op : OpCode) (arg : Byte) (s : State) : (accept op arg s).seq.bs = s.seq.bs := rfl
@[simp] theorem accept_byt (op : OpCode) (arg : Byte) (s : State) : (accept op arg s).seq.byt = s.seq.byt := rfl
@[simp] theorem accept_bitcnt (op : OpCode) (arg : Byte) (s : State) : (accept op arg s).seq.bitcnt = s.seq.bitcnt := rfl
@[simp] theorem accept_poll (op : OpCode) (arg : Byte) (s : State) : (accept op arg s).seq.poll = s.seq.poll := rfl
@[simp] theorem accept_dly (op : OpCode) (arg : Byte) (s : State) : (accept op arg s).seq.dly = s.seq.dly := rfl
@[simp] theorem accept_slotBit (op : OpCode) (arg : Byte) (s : State) : (accept op arg s).seq.slotBit = s.seq.slotBit := rfl
@[simp] theorem accept_env (op : OpCode) (arg : Byte) (s : State) : (accept op arg s).env = s.env := rfl
@[simp] theorem accept_log (op : OpCode) (arg : Byte) (s : State) : (accept op arg s).obs.log = s.obs.log := rfl
@[simp] theorem accept_now (op : OpCode) (arg : Byte) (s : State) : (accept op arg s).obs.now = s.obs.now := rfl
@[simp] theorem accept_done (op : OpCode) (arg : Byte) (s : State) : (accept op arg s).obs.done = false := rfl

/-! ### complete -/

@[simp] theorem complete_regs (s : State) : (complete s).regs = s.regs := rfl
@[simp] theorem complete_busy (s : State) : (complete s).flags.busy = false := rfl
@[simp] theorem complete_absent (s : State) : (complete s).flags.absent = s.flags.absent := rfl
@[simp] theorem complete_sign (s : State) : (complete s).flags.sign = s.flags.sign := rfl
@[simp] theorem complete_outLow (s : State) : (complete s).flags.outLow = s.flags.outLow := rfl
@[simp] theorem complete_opr (s : State) : (complete s).seq.opr = s.seq.opr := rfl
@[simp] theorem complete_cs (s : State) : (complete s).seq.cs = .idle := rfl
@[simp] theorem complete_rp (s : State) : (complete s).seq.rp = s.seq.rp := rfl
@[simp] theorem complete_bs (s : State) : (complete s).seq.bs = s.seq.bs := rfl
@[simp] theorem complete_byt (s : State) : (complete s).seq.byt = s.seq.byt := rfl
@[simp] theorem complete_bitcnt (s : State) : (complete s).seq.bitcnt = s.seq.bitcnt := rfl
@[simp] theorem complete_poll (s : State) : (complete s).seq.poll = s.seq.poll := rfl
@[simp] theorem complete_dly (s : State) : (complete s).seq.dly = s.seq.dly := rfl
@[simp] theorem complete_slotBit (s : State) : (complete s).seq.slotBit = s.seq.slotBit := rfl
@[simp] theorem complete_env (s : State) : (complete s).env = s.env := rfl
@[simp] theorem complete_log (s : State) : (complete s).obs.log = s.obs.log := rfl
@[simp] theorem complete_now (s : State) : (complete s).obs.now = s.obs.now := rfl
@[simp] theorem complete_done (s : State) : (complete s).obs.done = true := rfl

/-! ### beginStep -/

@[simp] theorem beginStep_regs (s : State) : (beginStep s).regs = s.regs := rfl
@[simp] theorem beginStep_flags (s : State) : (beginStep s).flags = s.flags := rfl
@[simp] theorem beginStep_seq (s : State) : (beginStep s).seq = s.seq := rfl
@[simp] theorem beginStep_env (s : State) : (beginStep s).env = { s.env with host := s.env.host.tail } := rfl
@[simp] theorem beginStep_log (s : State) : (beginStep s).obs.log = s.obs.log := rfl
@[simp] theorem beginStep_now (s : State) : (beginStep s).obs.now = s.obs.now := rfl
@[simp] theorem beginStep_done (s : State) : (beginStep s).obs.done = false := rfl

/-! ### idleFor -/

@[simp] theorem idleFor_regs (n : Nat) (s : State) : (idleFor n s).regs = s.regs := rfl
@[simp] theorem idleFor_flags (n : Nat) (s : State) : (idleFor n s).flags = s.flags := rfl
@[simp] theorem idleFor_seq (n : Nat) (s : State) : (idleFor n s).seq = s.seq := rfl
@[simp] theorem idleFor_env (n : Nat) (s : State) : (idleFor n s).env = s.env := rfl
@[simp] theorem idleFor_log (n : Nat) (s : State) : (idleFor n s).obs.log = s.obs.log := rfl
@[simp] theorem idleFor_now (n : Nat) (s : State) : (idleFor n s).obs.now = s.obs.now + n := rfl
@[simp] theorem idleFor_done (n : Nat) (s : State) : (idleFor n s).obs.done = s.obs.done := rfl

/-! ### decodeTemp -/

@[simp] theorem decodeTemp_shreg (s : State) : (decodeTemp s).regs.shreg = s.regs.shreg := rfl
@[simp] theorem decodeTemp_rdata (s : State) : (decodeTemp s).regs.rdata = s.regs.rdata := rfl
@[simp] theorem decodeTemp_lo (s : State) : (decodeTemp s).regs.lo = s.regs.lo := rfl
@[simp] theorem decodeTemp_hi (s : State) : (decodeTemp s).regs.hi = s.regs.hi := rfl
@[simp] theorem decodeTemp_mag16 (s : State) : (decodeTemp s).regs.mag16 = decodeMag16 s.regs.hi s.regs.lo := rfl
@[simp] theorem decodeTemp_temp (s : State) : (decodeTemp s).regs.temp = decodeTempWord s.regs.hi s.regs.lo := rfl
@[simp] theorem decodeTemp_busy (s : State) : (decodeTemp s).flags.busy = s.flags.busy := rfl
@[simp] theorem decodeTemp_absent (s : State) : (decodeTemp s).flags.absent = s.flags.absent := rfl
@[simp] theorem decodeTemp_sign (s : State) : (decodeTemp s).flags.sign = decodeSign s.regs.hi := rfl
@[simp] theorem decodeTemp_outLow (s : State) : (decodeTemp s).flags.outLow = s.flags.outLow := rfl
@[simp] theorem decodeTemp_seq (s : State) : (decodeTemp s).seq = s.seq := rfl
@[simp] theorem decodeTemp_env (s : State) : (decodeTemp s).env = s.env := rfl
@[simp] theorem decodeTemp_obs (s : State) : (decodeTemp s).obs = s.obs := rfl

/-! ### delay -/

@[simp] theorem delay_regs (n : Nat) (s : State) : (delay n s).regs = s.regs := by unfold delay; split <;> rfl
@[simp] theorem delay_flags (n : Nat) (s : State) : (delay n s).flags = s.flags := by unfold delay; split <;> rfl
@[simp] theorem delay_env (n : Nat) (s : State) : (delay n s).env = s.env := by unfold delay; split <;> rfl
@[simp] theorem delay_now (n : Nat) (s : State) : (delay n s).obs.now = s.obs.now + n := by
  unfold delay; split <;> simp_all
@[simp] theorem delay_done (n : Nat) (s : State) : (delay n s).obs.done = s.obs.done := by
  unfold delay; split <;> rfl
@[simp] theorem delay_log (n : Nat) (s : State) :
    (delay n s).obs.log = if n = 0 then s.obs.log else .D n :: s.obs.log := by unfold delay; split <;> rfl
@[simp] theorem delay_seq (n : Nat) (s : State) :
    (delay n s).seq = if n = 0 then s.seq else { s.seq with dly := 0 } := by unfold delay; split <;> rfl

/-! ### names for one of the updates above -/

@[simp] theorem countBit_eq (s : State) : countBit s = setBitcnt (s.seq.bitcnt + 1) s := rfl
@[simp] theorem countPoll_eq (s : State) : countPoll s = setPoll (s.seq.poll + 1) s := rfl
@[simp] theorem presenceTimeout_eq (s : State) : presenceTimeout s = endPoll true s := rfl
@[simp] theorem presenceFound_eq (s : State) : presenceFound s = endPoll false s := rfl
@[simp] theorem shregToRdata_eq (s : State) : shregToRdata s = setRdata s.regs.shreg s := rfl
@[simp] theorem shregToLo_eq (s : State) : shregToLo s = setLo s.regs.shreg s := rfl
@[simp] theorem shregToHi_eq (s : State) : shregToHi s = setHi s.regs.shreg s := rfl
@[simp] theorem lineLevel_eq (s : State) : lineLevel s = s.env.answer 0 := rfl

/-! ### hardware reset -/

@[simp] theorem hardwareReset_regs (s : State) : (hardwareReset s).regs = State.reset.regs := rfl
@[simp] theorem hardwareReset_flags (s : State) : (hardwareReset s).flags = State.reset.flags := rfl
@[simp] theorem hardwareReset_seq (s : State) : (hardwareReset s).seq = State.reset.seq := rfl
@[simp] theorem hardwareReset_env (s : State) : (hardwareReset s).env = s.env := rfl
@[simp] theorem hardwareReset_obs (s : State) : (hardwareReset s).obs = State.reset.obs := rfl

/-! ### the answer stream -/

/-- The k-th answer after n samples is answer n + k. -/
@[simp] theorem Env.answer_consume (e : Env) (n k : Nat) : (e.consume n).answer k = e.answer (n + k) := by
  simp [Env.consume, Env.answer, List.getElem?_drop, Nat.add_assoc]

@[simp] theorem Env.consume_consume (e : Env) (m n : Nat) : (e.consume m).consume n = e.consume (m + n) := by
  simp [Env.consume, List.drop_drop, Nat.add_assoc]

@[simp] theorem Env.consume_zero (e : Env) : e.consume 0 = e := rfl
@[simp] theorem Env.consume_view (e : Env) (n : Nat) : (e.consume n).view = e.view := rfl
@[simp] theorem Env.consume_host (e : Env) (n : Nat) : (e.consume n).host = e.host := rfl
@[simp] theorem Env.consume_draws (e : Env) (n : Nat) : (e.consume n).draws = e.draws + n := rfl
@[simp] theorem Env.consume_dqIn (e : Env) (n : Nat) : (e.consume n).dqIn = e.dqIn.drop n := rfl

/-- A trace grows at its end. -/
theorem trace_eq (s : State) : s.trace = s.obs.log.reverse := rfl

/-- Two states with equal parts are equal. -/
theorem State.eq_of_parts {s t : State} (h1 : s.regs = t.regs) (h2 : s.flags = t.flags) (h3 : s.seq = t.seq)
    (h4 : s.env = t.env) (h5 : s.obs = t.obs) : s = t := by
  cases s; cases t; simp_all

end Sys2Proof.Machine
end

