-- ==== Sys2Proof/Laws/Sequences.lean ====
section
/-! SUPPORT. One lemma per shared sequence: everything it does to a state. Claims about operations cite these. -/

namespace Sys2Proof.Machine

/-! ### Reset pulse and slots -/

/-- `ResetSeq()` (41_reset_presence.md R131). -/
theorem resetSeq_eq (s : State) : resetSeq s =
    { s with
      flags.outLow := false
      seq.rp := .idle
      seq.dly := 0
      obs.log := resetTrace.reverse ++ s.obs.log
      obs.now := s.obs.now + 765 } := by
  refine State.eq_of_parts ?_ ?_ ?_ ?_ ?_ <;> simp [resetSeq, resetTrace, setRp, driveLow, release, delay, record]

/-- `WriteSlot(b)` (42_bit_slots.md R152 to R154). -/
theorem writeSlot_eq (b : Bool) (s : State) : writeSlot b s =
    { s with
      flags.outLow := false
      seq.bs := .idle
      seq.dly := 0
      obs.log := (writeSlotTrace b).reverse ++ s.obs.log
      obs.now := s.obs.now + 62 } := by
  cases b <;> refine State.eq_of_parts ?_ ?_ ?_ ?_ ?_ <;>
    simp [writeSlot, writeSlot0, writeSlot1, writeSlotTrace, setBs, driveLow, release, delay, record]

/-- `ReadSlot()` returns the next answer (42_bit_slots.md R150). -/
theorem readSlot_bit (s : State) : (readSlot s).1 = s.env.answer 0 := by
  simp [readSlot, readSlotOpen]

/-- `ReadSlot()` (42_bit_slots.md R150). -/
theorem readSlot_state (s : State) : (readSlot s).2 =
    { s with
      flags.outLow := false
      seq.bs := .idle
      seq.dly := 0
      env := s.env.consume 1
      obs.log := (readSlotTrace (s.env.answer 0)).reverse ++ s.obs.log
      obs.now := s.obs.now + 64 } := by
  refine State.eq_of_parts ?_ ?_ ?_ ?_ ?_ <;>
    simp [readSlot, readSlotOpen, readSlotClose, readSlotTrace, setBs, driveLow, release, delay, record, sampled]

/-! ### Bytes -/

/-- The state after `n` more write slots: the low `n` bits of SHREG are sent, bit 0 first. -/
theorem writeBits_eq (n : Nat) (s : State) : writeBits n s =
    { s with
      regs.shreg := s.regs.shreg >>> n
      flags.outLow := if n = 0 then s.flags.outLow else false
      seq.bs := if n = 0 then s.seq.bs else .idle
      seq.bitcnt := s.seq.bitcnt + BitVec.ofNat 4 n
      seq.dly := if n = 0 then s.seq.dly else 0
      obs.log := ((List.range n).flatMap fun k => writeSlotTrace (s.regs.shreg.getLsbD k)).reverse ++ s.obs.log
      obs.now := s.obs.now + 62 * n } := by
  induction n generalizing s with
  | zero => refine State.eq_of_parts ?_ ?_ ?_ ?_ ?_ <;> simp [writeBits]
  | succ n ih =>
    rw [writeBits, ih, writeNextBit, writeSlot_eq]
    refine State.eq_of_parts ?_ ?_ ?_ ?_ ?_
    · simp [setBitcnt, setShreg, shiftOut, ← BitVec.shiftRight_add, Nat.add_comm]
    · simp [setBitcnt, setShreg]
    · simp [setBitcnt, setShreg, BitVec.ofNat_add, add_comm, add_left_comm]
    · simp [setBitcnt, setShreg]
    · simp only [setBitcnt, setShreg, shiftOut, firstBit, countBit, List.range_succ_eq_map, List.flatMap_cons,
        List.flatMap_map, List.reverse_append, List.append_assoc, BitVec.getLsbD_ushiftRight, Obs.mk.injEq,
        Nat.add_comm 1, Nat.succ_eq_add_one, true_and, and_true]
      omega

/-- `WriteByteSeq(v)` (43_byte_transactions.md R172): eight slots, bit 0 first, SHREG ends 0. -/
theorem writeByteSeq_eq (v : Byte) (s : State) : writeByteSeq v s =
    { s with
      regs.shreg := 0
      flags.outLow := false
      seq.bs := .idle
      seq.byt := .idle
      seq.bitcnt := 8
      seq.dly := 0
      obs.log := (writeByteTrace v).reverse ++ s.obs.log
      obs.now := s.obs.now + 496 } := by
  rw [writeByteSeq, writeBits_eq]
  have h : v >>> 8 = 0#8 := by apply BitVec.eq_of_getLsbD_eq; simp
  refine State.eq_of_parts ?_ ?_ ?_ ?_ ?_ <;> simp [setByt, setBitcnt, setShreg, writeByteTrace, h]

/-- The bits of a byte after one more bit has entered at bit 7. -/
theorem shiftIn_getLsbD (b : Bool) (v : Byte) (i : Nat) :
    (shiftIn b v).getLsbD i = if i < 7 then v.getLsbD (i + 1) else decide (i = 7) && b := by
  have h : (BitVec.ofBool b).getLsbD (i - 7) = (decide (i - 7 = 0) && b) := by cases b <;> simp
  rw [shiftIn, BitVec.getLsbD_append, h, BitVec.getLsbD_extractLsb']
  by_cases hi : i < 7
  · simp [hi, Nat.add_comm]
  · by_cases h7 : i = 7 <;> simp [hi, h7]; omega

/-- Shifting in the eight bits `b 0` to `b 7` leaves the byte whose bit k is `b k`, whatever was there. -/
theorem shiftIn_eight (b : Nat → Bool) (v : Byte) :
    shiftIn (b 7) (shiftIn (b 6) (shiftIn (b 5) (shiftIn (b 4) (shiftIn (b 3) (shiftIn (b 2) (shiftIn (b 1)
      (shiftIn (b 0) v))))))) = BitVec.ofNat 8 ((List.range 8).map fun k => (b k).toNat * 2 ^ k).sum := by
  apply BitVec.eq_of_getLsbD_eq
  intro i hi
  have bits : ∀ b0 b1 b2 b3 b4 b5 b6 b7 : Bool, ∀ j : Fin 8,
      (BitVec.ofNat 8 (b0.toNat + (b1.toNat * 2 + (b2.toNat * 4 + (b3.toNat * 8 + (b4.toNat * 16 +
        (b5.toNat * 32 + (b6.toNat * 64 + b7.toNat * 128)))))))).getLsbD j
        = [b0, b1, b2, b3, b4, b5, b6, b7].getD j false := by decide +kernel
  have sum : ((List.range 8).map fun k => (b k).toNat * 2 ^ k).sum =
      (b 0).toNat + ((b 1).toNat * 2 + ((b 2).toNat * 4 + ((b 3).toNat * 8 + ((b 4).toNat * 16 +
        ((b 5).toNat * 32 + ((b 6).toNat * 64 + (b 7).toNat * 128)))))) := by
    simp [List.range_succ]
  rw [sum, bits _ _ _ _ _ _ _ _ ⟨i, hi⟩]
  interval_cases i <;> simp only [shiftIn_getLsbD] <;> simp

/-- One turn of the read loop. -/
theorem readNextBit_eq (s : State) : readNextBit s =
    { s with
      regs.shreg := shiftIn (s.env.answer 0) s.regs.shreg
      flags.outLow := false
      seq.bs := .idle
      seq.dly := 0
      seq.bitcnt := s.seq.bitcnt + 1
      env := s.env.consume 1
      obs.log := (readSlotTrace (s.env.answer 0)).reverse ++ s.obs.log
      obs.now := s.obs.now + 64 } := by
  simp only [readNextBit, readSlot_state, readSlot_bit]
  rfl

/-- `ReadByteSeq()` (43_byte_transactions.md R170): SHREG ends as the byte read, bit 0 first. -/
theorem readByteSeq_eq (s : State) : readByteSeq s =
    { s with
      regs.shreg := receivedByte s.env 0
      flags.outLow := false
      seq.bs := .idle
      seq.byt := .idle
      seq.bitcnt := 8
      seq.dly := 0
      env := s.env.consume 8
      obs.log := (readByteTrace s.env 0).reverse ++ s.obs.log
      obs.now := s.obs.now + 512 } := by
  have h := shiftIn_eight (fun k => s.env.answer k) s.regs.shreg
  simp only [readByteSeq, readBits, readNextBit_eq, setByt, setBitcnt, Env.answer_consume,
    Env.consume_consume, Nat.reduceAdd, Nat.zero_add, receivedByte]
  refine State.eq_of_parts ?_ ?_ ?_ ?_ ?_
  · simp only [h]
  · rfl
  · simp
  · rfl
  · simp [readByteTrace, List.range_succ]

/-! ### The presence poll -/

/-- Phase B with `n` polls left: it ends at the first high answer, or after `n` low ones (R132). -/
theorem phaseB_eq (n : Nat) (s : State) : phaseB n s =
    match (List.range n).find? fun j => s.env.answer j with
    | some b =>
      { s with
        flags.absent := false
        seq.rp := .idle
        seq.poll := 0
        seq.dly := if b = 0 then s.seq.dly else 0
        env := s.env.consume (b + 1)
        obs.log := (pollsTrace false b ++ [Event.S true]).reverse ++ s.obs.log
        obs.now := s.obs.now + b }
    | none =>
      { s with
        flags.absent := true
        seq.rp := .idle
        seq.poll := 0
        seq.dly := if n = 0 then s.seq.dly else 0
        env := s.env.consume n
        obs.log := (pollsTrace false n).reverse ++ s.obs.log
        obs.now := s.obs.now + n } := by
  induction n generalizing s with
  | zero => refine State.eq_of_parts ?_ ?_ ?_ ?_ ?_ <;> simp [phaseB, pollsTrace, endPoll, setAbsent, setRp, setPoll]
  | succ n ih =>
    rw [phaseB, lineLevel_eq, List.range_succ_eq_map, List.find?_cons]
    cases h : s.env.answer 0 with
    | true =>
      refine State.eq_of_parts ?_ ?_ ?_ ?_ ?_ <;>
        simp [h, pollsTrace, sampled, record, endPoll, setAbsent, setRp, setPoll]
    | false =>
      rw [ih]
      simp only [List.find?_map, Function.comp_def, Nat.succ_eq_add_one, setPoll_env, countPoll_eq, delay_env,
        sampled_env, Env.answer_consume, Bool.false_eq_true, if_false, Nat.add_comm 1]
      cases (List.range n).find? fun j => s.env.answer (j + 1) <;>
        refine State.eq_of_parts ?_ ?_ ?_ ?_ ?_ <;>
        simp [h, pollsTrace, List.replicate_succ, setPoll, delay, sampled, record, Nat.add_comm, Nat.add_left_comm]

/-- Phase A with `n` polls left: it ends at the first low answer, or after `n` high ones (R132). -/
theorem phaseA_eq (n : Nat) (s : State) : phaseA n s =
    match (List.range n).find? fun i => !s.env.answer i with
    | some a =>
      phaseB 240
        { s with
          seq.rp := .prB
          seq.poll := 0
          seq.dly := if a = 0 then s.seq.dly else 0
          env := s.env.consume (a + 1)
          obs.log := (pollsTrace true a ++ [Event.S false]).reverse ++ s.obs.log
          obs.now := s.obs.now + a }
    | none =>
      { s with
        flags.absent := true
        seq.rp := .idle
        seq.poll := 0
        seq.dly := if n = 0 then s.seq.dly else 0
        env := s.env.consume n
        obs.log := (pollsTrace true n).reverse ++ s.obs.log
        obs.now := s.obs.now + n } := by
  induction n generalizing s with
  | zero => refine State.eq_of_parts ?_ ?_ ?_ ?_ ?_ <;> simp [phaseA, pollsTrace, endPoll, setAbsent, setRp, setPoll]
  | succ n ih =>
    rw [phaseA, lineLevel_eq, List.range_succ_eq_map, List.find?_cons]
    cases h : s.env.answer 0 with
    | false =>
      simp only [Bool.false_eq_true, if_false, Bool.not_false]
      congr 1
      refine State.eq_of_parts ?_ ?_ ?_ ?_ ?_ <;>
        simp [h, pollsTrace, sampled, record, enterPhaseB, setRp, setPoll]
    | true =>
      simp only [if_true]
      rw [ih]
      simp only [List.find?_map, Function.comp_def, Nat.succ_eq_add_one, setPoll_env, countPoll_eq, delay_env,
        sampled_env, Env.answer_consume, Bool.not_true, Nat.add_comm 1]
      cases (List.range n).find? fun i => !s.env.answer (i + 1) with
      | none =>
        refine State.eq_of_parts ?_ ?_ ?_ ?_ ?_ <;>
          simp [h, pollsTrace, List.replicate_succ, setPoll, delay, sampled, record, Nat.add_comm, Nat.add_left_comm]
      | some a =>
        simp only [Option.map_some]
        congr 1
        refine State.eq_of_parts ?_ ?_ ?_ ?_ ?_ <;>
          simp [h, pollsTrace, List.replicate_succ, setPoll, delay, sampled, record, Nat.add_comm, Nat.add_left_comm]

/-- `PresenceSeq()` is the table of 41_reset_presence.md R136. -/
theorem presenceSeq_eq (s : State) : presenceSeq s =
    { s with
      flags.absent := (pollOutcome s.env 0).absent
      seq.rp := .idle
      seq.poll := 0
      seq.dly := if (pollOutcome s.env 0).time = 0 then s.seq.dly else 0
      env := s.env.consume (pollOutcome s.env 0).answers
      obs.log := (pollOutcome s.env 0).trace.reverse ++ s.obs.log
      obs.now := s.obs.now + (pollOutcome s.env 0).time } := by
  rw [presenceSeq, Config.nPa, phaseA_eq, pollOutcome, firstLow]
  simp only [enterPhaseA, setPoll_env, setRp_env, Nat.zero_add]
  cases (List.range 200).find? fun i => !s.env.answer i with
  | none => refine State.eq_of_parts ?_ ?_ ?_ ?_ ?_ <;> simp [setRp, setPoll]
  | some a =>
    simp only [phaseB_eq, firstHigh, Env.answer_consume]
    obtain h | ⟨b, h⟩ := Option.eq_none_or_eq_some ((List.range 240).find? fun j => s.env.answer (a + 1 + j)) <;>
      simp only [h] <;> refine State.eq_of_parts ?_ ?_ ?_ ?_ ?_ <;>
      simp [setRp, setPoll, Nat.add_comm, Nat.add_left_comm] <;> (try split) <;> simp_all [Nat.add_assoc]

/-! ### The composite chains -/

/-- `ResetPresence()` (44_command_sequences.md R191). -/
theorem resetPresence_eq (s : State) : resetPresence s =
    { s with
      flags.outLow := false
      flags.absent := (pollOutcome s.env 0).absent
      seq.rp := .idle
      seq.poll := 0
      seq.dly := 0
      env := s.env.consume (pollOutcome s.env 0).answers
      obs.log := (resetTrace ++ (pollOutcome s.env 0).trace).reverse ++ s.obs.log
      obs.now := s.obs.now + (765 + (pollOutcome s.env 0).time) } := by
  rw [resetPresence, presenceSeq_eq, resetSeq_eq]
  refine State.eq_of_parts ?_ ?_ ?_ ?_ ?_ <;> simp [Nat.add_assoc]

/-- `StartConvSeq()` (44_command_sequences.md R192). -/
theorem startConvSeq_eq (s : State) : startConvSeq s =
    { s with
      regs.shreg := 0
      flags.outLow := false
      flags.absent := (pollOutcome s.env 0).absent
      seq.cs := .conv
      seq.rp := .idle
      seq.bs := .idle
      seq.byt := .idle
      seq.bitcnt := 8
      seq.poll := 0
      seq.dly := 0
      env := s.env.consume (pollOutcome s.env 0).answers
      obs.log := (resetTrace ++ (pollOutcome s.env 0).trace ++ writeByteTrace 0xCC ++ writeByteTrace 0x44).reverse
        ++ s.obs.log
      obs.now := s.obs.now + (1757 + (pollOutcome s.env 0).time) } := by
  rw [startConvSeq, resetPresence_eq, writeByteSeq_eq, writeByteSeq_eq]
  refine State.eq_of_parts ?_ ?_ ?_ ?_ ?_ <;> simp [setCs]; omega

/-- The read half of GetTemperature (44_command_sequences.md R194). -/
theorem readScratchpadSeq_eq (s : State) : readScratchpadSeq s =
    { s with
      regs.shreg := receivedByte s.env ((pollOutcome s.env 0).answers + 8)
      regs.lo := receivedByte s.env (pollOutcome s.env 0).answers
      regs.hi := receivedByte s.env ((pollOutcome s.env 0).answers + 8)
      flags.outLow := false
      flags.absent := (pollOutcome s.env 0).absent
      seq.cs := .rdhi
      seq.rp := .idle
      seq.bs := .idle
      seq.byt := .idle
      seq.bitcnt := 8
      seq.poll := 0
      seq.dly := 0
      env := s.env.consume ((pollOutcome s.env 0).answers + 16)
      obs.log := (resetTrace ++ (pollOutcome s.env 0).trace ++ writeByteTrace 0xCC ++ writeByteTrace 0xBE
        ++ readByteTrace s.env (pollOutcome s.env 0).answers
        ++ readByteTrace s.env ((pollOutcome s.env 0).answers + 8)).reverse ++ s.obs.log
      obs.now := s.obs.now + (2781 + (pollOutcome s.env 0).time) } := by
  have rb (e : Env) (m n : Nat) : receivedByte (e.consume m) n = receivedByte e (m + n) := by
    simp [receivedByte, Nat.add_assoc]
  have rt (e : Env) (m n : Nat) : readByteTrace (e.consume m) n = readByteTrace e (m + n) := by
    simp [readByteTrace, Nat.add_assoc]
  simp only [readScratchpadSeq, shregToLo_eq, shregToHi_eq]
  rw [resetPresence_eq, writeByteSeq_eq, writeByteSeq_eq, readByteSeq_eq, readByteSeq_eq]
  refine State.eq_of_parts ?_ ?_ ?_ ?_ ?_ <;> simp [setCs, setLo, setHi, rb, rt]; omega

/-! ### A tick-counted delay -/

/-- While a delay runs, a tick that does not end it only counts (10_state.md R36). -/
theorem tick_running (s : State) (h : 2 ≤ s.seq.dly.toNat) : tick s =
    { s with seq.dly := s.seq.dly - 1, obs.now := s.obs.now + 1 } := by
  have hne : s.seq.dly - 1 ≠ 0 := by
    intro h0
    have := congrArg BitVec.toNat h0
    simp [BitVec.toNat_sub] at this
    omega
  exact if_neg hne

end Sys2Proof.Machine
end

