-- ==== Sys2Proof/Laws/Step.lean ====
section
/-! SUPPORT. What a step can do, said once. -/

namespace Sys2Proof.Machine

/-- A sending phase is the same whether its byte is fetched as an instruction or not. -/
theorem wire_fetch_runs_phase {s : State} {b : Byte} (h : wireByte s.seq.cs = some b) :
    ∃ i, decode (.wire8 b) = .ok i ∧ exec i s = .next (phaseSeq s) ∧ s.seq.cs ≠ .idle := by
  cases hc : s.seq.cs <;> rw [hc] at h <;> simp [wireByte] at h <;> subst h <;>
    first
    | exact ⟨.wireSkipRom, rfl, by simp [exec, execSkipRom, phaseSeq, hc], by simp⟩
    | exact ⟨.wireConvertT, rfl, by simp [exec, execConvertT, phaseSeq, hc], by simp⟩
    | exact ⟨.wireReadScratchpad, rfl, by simp [exec, execReadScratchpad, phaseSeq, hc], by simp⟩

/-- The step without hardware reset, of an idle engine. -/
theorem step_idle {s : State} (hr : s.env.present.rst = false) (hb : s.flags.busy = false) :
    step s = if s.env.present.cmdValid = true then
        if s.env.view = .byOperation then exec (decodeCommand s.env.present.word) (beginStep s)
        else .next (accept s.env.present.cmdOp s.env.present.cmdArg (beginStep s))
      else .next (idleFor s.env.present.gap (beginStep s)) := by
  by_cases hv : s.env.present.cmdValid = true <;> by_cases hw : s.env.view = .byOperation
  · simp only [step, hr, fetch, hb, hv, hw, decode]
    cases h : exec (decodeCommand s.env.present.word) (beginStep s) <;> simp [h, afterExec]
  all_goals simp [step, hr, fetch, hb, hv, hw, proceed]

/-- The step without hardware reset, of a busy engine: a whole state of CS, or a micro-operation. -/
theorem step_busy {s : State} (hr : s.env.present.rst = false) (hb : s.flags.busy = true) :
    step s = if s.env.view ≠ .byMicroOperation ∧ atPhaseStart s = true then .next (phaseStep (beginStep s))
      else .next (microStep (beginStep s)) := by
  have hp : atPhaseStart (beginStep s) = atPhaseStart s := rfl
  by_cases h : s.env.view ≠ .byMicroOperation ∧ atPhaseStart s = true
  · rw [if_pos h]
    cases hw : wireByte s.seq.cs with
    | none => simp [step, hr, fetch, hb, h, hw, proceed, hp]
    | some b =>
      obtain ⟨i, hd, he, hc⟩ := wire_fetch_runs_phase (s := beginStep s) hw
      have hc' : s.seq.cs ≠ .idle := hc
      simp [step, hr, fetch, hb, h, hw, hd, he, afterExec, phaseStep, hc']
  · rw [if_neg h]
    simp [step, hr, fetch, hb, h, proceed, hp]

/-- Everything a step can do. -/
theorem step_cases {s t : State} (h : step s = .next t) :
    (s.env.present.rst = true ∧ t = hardwareReset (beginStep s)) ∨
    (s.env.present.rst = false ∧ s.flags.busy = false ∧ s.env.present.cmdValid = true ∧ s.env.view = .byOperation ∧
      exec (decodeCommand s.env.present.word) (beginStep s) = .next t) ∨
    (s.env.present.rst = false ∧ s.flags.busy = false ∧ s.env.present.cmdValid = true ∧ s.env.view ≠ .byOperation ∧
      t = accept s.env.present.cmdOp s.env.present.cmdArg (beginStep s)) ∨
    (s.env.present.rst = false ∧ s.flags.busy = false ∧ s.env.present.cmdValid = false ∧
      t = idleFor s.env.present.gap (beginStep s)) ∨
    (s.env.present.rst = false ∧ s.flags.busy = true ∧ s.env.view ≠ .byMicroOperation ∧ atPhaseStart s = true ∧
      t = phaseStep (beginStep s)) ∨
    (s.env.present.rst = false ∧ s.flags.busy = true ∧ ¬(s.env.view ≠ .byMicroOperation ∧ atPhaseStart s = true) ∧
      t = microStep (beginStep s)) := by
  cases hr : s.env.present.rst with
  | true =>
    simp [step, hr] at h
    exact .inl ⟨rfl, h.symm⟩
  | false =>
    cases hb : s.flags.busy with
    | false =>
      rw [step_idle hr hb] at h
      split at h
      · split at h
        · simp_all
        · simp only [Host.Outcome.next.injEq] at h; simp_all
      · simp only [Host.Outcome.next.injEq] at h; simp_all
    | true =>
      rw [step_busy hr hb] at h
      split at h <;> simp only [Host.Outcome.next.injEq] at h <;> simp_all

end Sys2Proof.Machine
end

