-- ==== Sys2Proof/Tests/Slice0.lean ====
section
/-! SUPPORT. The model's own tests (expected results from spec/95_test_vectors.md and the spec's encodings), and for
every statement with hypotheses a witness that meets them together. -/

open Sys2Proof Sys2Proof.Machine

namespace Sys2Proof.Tests

/-! ### Well-formedness and decoding -/

/-- An ill-formed term for each check. -/
theorem test_ill_formed_terms_refused :
    numberFits 16 0x800 = false ∧ numberFits 8 0x100 = false ∧ Instr.assembled (.opReset 1) = false ∧
    Instr.assembled (.opGetTemperature 0xFF) = false ∧ Instr.assembled .wireConvertT = false := by decide

/-- No encoding is illegal (30_encoding.md R83), so `Instr.wellFormed` refuses none. -/
theorem test_every_instruction_well_formed (i : Instr) : i.wellFormed = true := by cases i <;> rfl

/-- CMD[10:8] = 000. -/
theorem test_decode_initialize : decode (.cmd11 0b000_00000000) = .ok (.opInitialize 0) := by decide
/-- CMD[10:8] = 001. -/
theorem test_decode_reset : decode (.cmd11 0b001_00000000) = .ok (.opReset 0) := by decide
/-- CMD[10:8] = 010. -/
theorem test_decode_check_presence : decode (.cmd11 0b010_00000000) = .ok (.opCheckPresence 0) := by decide
/-- CMD[10:8] = 011, an argument that is ignored. -/
theorem test_decode_read_bit : decode (.cmd11 0b011_11111111) = .ok (.opReadBit 0xFF) := by decide
/-- CMD[10:8] = 100. -/
theorem test_decode_read_byte : decode (.cmd11 0b100_00000000) = .ok (.opReadByte 0) := by decide
/-- CMD[10:8] = 101, `WriteByte 0xCC` is 0x5CC. -/
theorem test_decode_write_byte : decode (.cmd11 0b101_11001100) = .ok (.opWriteByte 0xCC) := by decide
/-- CMD[10:8] = 110. -/
theorem test_decode_start_conversion : decode (.cmd11 0b110_00000000) = .ok (.opStartConversion 0) := by decide
/-- CMD[10:8] = 111. -/
theorem test_decode_get_temperature : decode (.cmd11 0b111_00000000) = .ok (.opGetTemperature 0) := by decide
/-- 0xCC. -/
theorem test_decode_skip_rom : decode (.wire8 0b11001100) = .ok .wireSkipRom := by decide
/-- 0x44. -/
theorem test_decode_convert_t : decode (.wire8 0b01000100) = .ok .wireConvertT := by decide
/-- 0xBE. -/
theorem test_decode_read_scratchpad : decode (.wire8 0b10111110) = .ok .wireReadScratchpad := by decide

/-- A byte that is no wire command, a number of twelve bits, and three bytes are refused by name. -/
theorem test_decode_refuses_by_name :
    decode (.wire8 0x4E) = .error (.notACommandByte 0x4E) ∧
    decodeBytes [0x00, 0x08] = .error (.widerThanACommandWord 8) ∧
    decodeBytes [0, 0, 0] = .error (.notOneOrTwoBytes 3) := by decide

/-- The states' numeric codes are distinct (10_state.md R32 to R35). -/
theorem test_state_codes_distinct :
    ([CsState.idle, .rp1, .skip1, .conv, .rp2, .skip2, .rdsp, .rdlo, .rdhi, .dec, .prim, .init].map
      CsState.code).Nodup ∧
    ([RpState.idle, .rstLow, .rstRec, .prA, .prB].map RpState.code).Nodup ∧
    ([BsState.idle, .w1Low, .w1Rec, .w0Low, .w0Rec, .rLow, .rWait, .rPad].map BsState.code).Nodup ∧
    ([ByState.idle, .wr, .rd].map ByState.code).Nodup := by decide

/-- `WriteByte 0xCC` is 0x5CC and `GetTemperature` 0x700; an operand elsewhere is no line. -/
theorem test_assemble :
    assemble "WriteByte" (some 0xCC) = some 0x5CC ∧ assemble "GetTemperature" none = some 0x700 ∧
    assemble "Reset" (some 0) = none ∧ assemble "WriteByte" none = none := by
  simp [assemble, commandWord]

/-! ### Effects: one operation from the reset state -/

/-- The reset state with the line's answers to come. -/
def resting (answers : List Bool) : State := { State.reset with env.dqIn := answers }

/-- The state after an instruction; itself if it stopped. -/
def after (i : Instr) (s : State) : State :=
  match exec i s with
  | .next t => t
  | .fault _ => s
  | .refused _ => s

/-- The answers of vector P5: 15 highs, 100 lows, a high. -/
def presencePulse : List Bool := List.replicate 15 true ++ List.replicate 100 false ++ [true]

/-- `W1` and `W0` of 95_test_vectors.md. -/
def w1 : List Event := [.L, .D 2, .Z, .D 60]
/-- See `w1`. -/
def w0 : List Event := [.L, .D 60, .Z, .D 2]

/-- Vector P12. -/
theorem test_initialize_device_answers :
    (after (.opInitialize 0) (resting presencePulse)).flags.absent = false ∧
    (after (.opInitialize 0) (resting presencePulse)).obs.now = 879 := by decide +kernel

/-- Vector P11. -/
theorem test_initialize_no_answer :
    (after (.opInitialize 0) (resting (List.replicate 200 true))).flags.absent = true ∧
    (after (.opInitialize 0) (resting (List.replicate 200 true))).obs.now = 965 := by decide +kernel

/-- Vector P1. -/
theorem test_reset_pulse : (after (.opReset 0) (resting [])).trace = [.L, .D 750, .Z, .D 15] := by decide

/-- Vector P6, the latest pulse that is detected. -/
theorem test_check_presence_latest_pulse :
    let t := after (.opCheckPresence 0) (resting (List.replicate 199 true ++ List.replicate 240 false ++ [true]))
    t.flags.absent = false ∧ t.obs.now = 438 ∧ t.env.draws = 440 := by decide +kernel

/-- Vector P9: high again only at offset 240, a timeout of kind B that leaves the last answer unasked. -/
theorem test_check_presence_high_too_late :
    let t := after (.opCheckPresence 0) (resting (List.replicate 30 true ++ List.replicate 241 false ++ [true]))
    t.flags.absent = true ∧ t.obs.now = 270 ∧ t.env.dqIn = [true] := by decide +kernel

/-- Vector B1. -/
theorem test_read_bit_low : (after (.opReadBit 0) (resting [false])).trace =
    [.L, .D 2, .Z, .D 12, .S false, .D 50] := by decide

/-- Vector B3. -/
theorem test_read_bit_high : (after (.opReadBit 0xFF) (resting [true])).regs.rdata = 0x01 := by decide

/-- Vector Y9. -/
theorem test_read_byte_0x90 :
    (after (.opReadByte 0) (resting [false, false, false, false, true, false, false, true])).regs.rdata = 0x90 := by
  decide

/-- Vector Y15: the old SHREG is shifted out. -/
theorem test_read_byte_old_shreg_gone :
    (after (.opReadByte 0) (setShreg 0xFF (resting (List.replicate 8 false)))).regs.shreg = 0x00 := by decide

/-- Vector Y1. -/
theorem test_write_byte_0xCC : (after (.opWriteByte 0xCC) (resting [])).trace =
    w0 ++ w0 ++ w1 ++ w1 ++ w0 ++ w0 ++ w1 ++ w1 := by decide

/-- Vector Y6: time, SHREG and the time the line is low. -/
theorem test_write_byte_0x01 :
    let t := after (.opWriteByte 0x01) (resting [])
    t.obs.now = 496 ∧ t.regs.shreg = 0x00 ∧ lowTime false t.trace = 422 := by decide

/-- Vector Q1. -/
theorem test_start_conversion_device_at_once :
    let t := after (.opStartConversion 0) (resting [false, true])
    t.flags.absent = false ∧ t.obs.now = 1757 ∧ t.trace.count .L = 17 := by decide +kernel

/-- Vector Q2. -/
theorem test_start_conversion_no_device :
    let t := after (.opStartConversion 0) (resting (List.replicate 200 true))
    t.flags.absent = true ∧ t.obs.now = 1957 ∧ lowTime false t.trace = 1362 := by decide +kernel

/-- Vector Q4: raw 0xFF5E. -/
theorem test_get_temperature_negative :
    let t := after (.opGetTemperature 0) (resting (presencePulse ++ presencePulse ++
      [false, true, true, true, true, false, true, false] ++ List.replicate 8 true))
    t.regs.lo = 0x5E ∧ t.regs.hi = 0xFF ∧ t.flags.sign = true ∧ t.regs.mag16 = 0x00A1 ∧ t.regs.temp = -100 ∧
    t.obs.now = 4766 ∧ t.env.draws = 248 := by decide +kernel

/-- Vector Q6: the second poll's timeout of kind B decides ABSENT. -/
theorem test_get_temperature_stuck_low :
    let t := after (.opGetTemperature 0) (resting (List.replicate 200 true ++ List.replicate 257 false))
    t.regs.hi = 0x00 ∧ t.regs.temp = 0 ∧ t.flags.absent = true ∧ t.obs.now = 4978 := by decide +kernel

/-- B(0xCC) of 95_test_vectors.md. -/
theorem test_skip_rom : (after .wireSkipRom (resting [])).trace =
    w0 ++ w0 ++ w1 ++ w1 ++ w0 ++ w0 ++ w1 ++ w1 := by decide
/-- B(0x44). -/
theorem test_convert_t : (after .wireConvertT (resting [])).trace =
    w0 ++ w0 ++ w1 ++ w0 ++ w0 ++ w0 ++ w1 ++ w0 := by decide
/-- B(0xBE). -/
theorem test_read_scratchpad : (after .wireReadScratchpad (resting [])).trace =
    w0 ++ w1 ++ w1 ++ w1 ++ w1 ++ w1 ++ w0 ++ w1 := by decide

/-- Vectors T13 to T16, T20 and T23: the threshold, the ends, the missing one. -/
theorem test_decode_temperature :
    (decodeTempWord 0x07 0x00).toInt = 1120 ∧ (decodeTempWord 0x08 0x00).toInt = -39679 ∧
    (decodeTempWord 0x33 0x30).toInt = -32769 ∧ (decodeTempWord 0x33 0x31).toInt = -32768 ∧
    (decodeTempWord 0xFC 0x90).toInt = -549 ∧ (decodeTempWord 0xFF 0xF8).toInt = -4 := by decide

/-! ### States for the witnesses -/

/-- A Reset in progress: the line is low, `left` microseconds of the pulse are left. -/
def inPulse (left : Nat) : State where
  regs := State.reset.regs
  flags := { State.reset.flags with busy := true, outLow := true }
  seq := { State.reset.seq with opr := 1, cs := .prim, rp := .rstLow, dly := BitVec.ofNat 10 left }
  env := { State.reset.env with view := .byMicroOperation }
  obs := { State.reset.obs with log := [.L] }

/-- A state of CS about to begin, in GetTemperature or the operation `op`, with raw 0xFF5E read. -/
def standing (op : OpCode) (c : CsState) (v : View) : State where
  regs := { State.reset.regs with lo := 0x5E, hi := 0xFF }
  flags := { State.reset.flags with busy := true }
  seq := { State.reset.seq with opr := op, cs := c }
  env := { State.reset.env with view := v }
  obs := State.reset.obs

/-- The pad of the last read slot of operation `op` in state `c` is over; the slot read a high. -/
def readEnding (op : OpCode) (c : CsState) (y : ByState) : State where
  regs := State.reset.regs
  flags := { State.reset.flags with busy := true }
  seq := { State.reset.seq with opr := op, cs := c, bs := .rPad, byt := y, bitcnt := 7, slotBit := some true }
  env := { State.reset.env with view := .byMicroOperation }
  obs := { State.reset.obs with log := [.S true, .Z, .L] }

/-- CheckPresence at the last sample of phase B, which answers high. -/
def pollEnding : State where
  regs := State.reset.regs
  flags := { State.reset.flags with busy := true }
  seq := { State.reset.seq with opr := 2, cs := .prim, rp := .prB, poll := 239 }
  env := { State.reset.env with view := .byMicroOperation, dqIn := [true] }
  obs := State.reset.obs

/-- An idle engine some time after a ReadByte. -/
def idleLater : State := { after (.opReadByte 0) (resting (List.replicate 8 true)) with obs.done := false }

/-- The state after a step; itself if it stopped. -/
def stepped (s : State) : State :=
  match step s with
  | .next t => t
  | .fault _ => s
  | .refused _ => s

theorem inPulse_legal : Legal (inPulse 750) := by
  refine ⟨⟨by decide, by decide, by decide, ?_, ?_, ?_, ?_, by decide⟩, by decide⟩
  all_goals simp [inPulse, State.reset, pathLegal, rpLegal, bytLegal, bsLegal]

theorem standing_dec_legal (v : View) : Legal (standing 7 .dec v) := by
  refine ⟨⟨?_, ?_, ?_, ?_, ?_, ?_, ?_, ?_⟩, ?_⟩
  all_goals simp [standing, State.reset, pathLegal, rpLegal, bytLegal, bsLegal, traceLegal, drivenAfter, drivesLow,
    TraceFits]

theorem idleLater_legal : Legal idleLater := by
  refine ⟨⟨by decide, by decide, by decide, ?_, ?_, ?_, ?_, by decide⟩, by decide +kernel⟩
  · show True; trivial
  · show idleLater.seq.poll = 0; decide
  · show idleLater.seq.bitcnt.toNat ≤ 8; decide
  · show idleLater.seq.slotBit = none; decide

theorem readEnding_legal {op : OpCode} {c : CsState} {y : ByState}
    (h : (op = 3 ∧ c = .prim ∧ y = .idle) ∨ (op = 4 ∧ c = .prim ∧ y = .rd) ∨ (op = 7 ∧ c = .rdlo ∧ y = .rd) ∨
      (op = 7 ∧ c = .rdhi ∧ y = .rd)) : Legal (readEnding op c y) := by
  rcases h with ⟨rfl, rfl, rfl⟩ | ⟨rfl, rfl, rfl⟩ | ⟨rfl, rfl, rfl⟩ | ⟨rfl, rfl, rfl⟩ <;>
  · refine ⟨⟨?_, ?_, ?_, ?_, ?_, ?_, ?_, ?_⟩, ?_⟩
    all_goals simp [readEnding, State.reset, pathLegal, rpLegal, bytLegal, bsLegal, readSlotLegal, traceLegal,
      drivenAfter, drivesLow, TraceFits]

theorem pollEnding_legal : Legal pollEnding := by
  refine ⟨⟨?_, ?_, ?_, ?_, ?_, ?_, ?_, ?_⟩, ?_⟩
  all_goals simp [pollEnding, State.reset, pathLegal, rpLegal, bytLegal, bsLegal, traceLegal, drivenAfter, drivesLow,
    TraceFits]

/-! ### Witnesses: each statement's hypotheses, met together -/

theorem witness_ArgumentIsIgnoredButByWriteByte :
    (opOf 0x400 = opOf 0x4FF ∧ opOf 0x400 ≠ 5) ∧ (opOf 0x600 = opOf 0x6FF ∧ opOf 0x600 ≠ 5) ∧ opOf 0x500 = 5 ∧
    opOf 0x5FF = 5 := by decide

theorem witness_StepRunsTheFetchedInstruction_idle :
    let s := watched .byOperation [presenting 0x5CC] State.reset
    s.env.present.rst = false ∧ s.flags.busy = false ∧ s.env.present.cmdValid = true ∧ s.env.view = .byOperation ∧
    decode (.cmd11 s.env.present.word) = .ok (.opWriteByte 0xCC) := by decide

theorem witness_StepRunsTheFetchedInstruction_busy :
    let s := standing 7 .rdsp .byPhase
    s.env.present.rst = false ∧ s.flags.busy = true ∧ s.env.view ≠ .byMicroOperation ∧ atPhaseStart s = true ∧
    wireByte s.seq.cs = some 0xBE ∧ decode (.wire8 0xBE) = .ok .wireReadScratchpad ∧
    exec .wireReadScratchpad (beginStep s) = .next (after .wireReadScratchpad (beginStep s)) :=
  ⟨by decide, by decide, by decide, by decide, by decide, by decide, rfl⟩

theorem witness_HardwareResetLeavesResetValues :
    (watched .byMicroOperation [{ rst := true }] (inPulse 300)).env.present.rst = true := by decide

theorem witness_StepKeepsLegal : Legal (inPulse 750) ∧ step (inPulse 750) = .next (stepped (inPulse 750)) :=
  ⟨inPulse_legal, rfl⟩

theorem witness_IdleEngineIsAtRest : Legal idleLater ∧ idleLater.flags.busy = false := ⟨idleLater_legal, by decide⟩

theorem witness_StepKeepsTempInRange :
    TempInRange (standing 7 .dec .byPhase) ∧
    step (standing 7 .dec .byPhase) = .next (stepped (standing 7 .dec .byPhase)) := ⟨by decide, rfl⟩

theorem witness_StepKeepsReadingFits :
    Legal (standing 7 .dec .byMicroOperation) ∧ ReadingFits (standing 7 .dec .byMicroOperation) ∧
    step (standing 7 .dec .byMicroOperation) = .next (stepped (standing 7 .dec .byMicroOperation)) :=
  ⟨standing_dec_legal _, .inr (.inl rfl), rfl⟩

/-- For the refinements, the end of the operations and the timeline: from rest, a primitive operation and both
composite ones. -/
theorem witness_RefinementsFromRest (v : View) :
    AtRest idleLater ∧ opOf 0x500 = 5 ∧ opOf 0x600 = 6 ∧ opOf 0x700 = 7 ∧
    (∃ t, exec (decodeCommand 0x500) (watched v [] idleLater) = .next t) ∧
    (∃ t, exec (decodeCommand 0x600) (watched v [] idleLater) = .next t) ∧
    (∃ t, exec (decodeCommand 0x700) (watched v [] idleLater) = .next t) :=
  ⟨by decide, by decide, by decide, by decide, ⟨_, rfl⟩, ⟨_, rfl⟩, ⟨_, rfl⟩⟩

/-- Acceptance of the codes at which the clauses meet: 0, 1, 5, 6, 7. -/
theorem witness_AcceptanceBusyAndCompletion_accept :
    ∀ w ∈ [0x000, 0x100, 0x5A5, 0x600, 0x7FF], ∀ v ∈ [View.byPhase, .byMicroOperation],
      let s := watched v [presenting w] idleLater
      s.env.present.rst = false ∧ s.flags.busy = false ∧ s.env.present.cmdValid = true ∧ s.env.view ≠ .byOperation := by
  decide

theorem witness_AcceptanceBusyAndCompletion_busy :
    (inPulse 300).flags.busy = true ∧ (presenting 0x700).rst = false ∧ ({} : HostInput).rst = false := by decide

/-- The last step of GetTemperature completes; for the marking of completions too. -/
theorem witness_AcceptanceBusyAndCompletion_complete :
    let s := standing 7 .dec .byPhase
    s.env.present.rst = false ∧ s.flags.busy = true ∧ step s = .next (stepped s) ∧ (stepped s).flags.busy = false :=
  ⟨by decide, by decide, rfl, by decide⟩

theorem witness_DoneMarksExactlyTheCompletions :
    (inPulse 2).env.present.rst = false ∧ step (inPulse 2) = .next (stepped (inPulse 2)) := ⟨by decide, rfl⟩

/-- Every line of the assembler, for both halves of the statement. -/
theorem witness_AssembledLineIsItsCommand :
    (assemble "WriteByte" (some 0xFF)).isSome = true ∧
    (∀ m ∈ ["Initialize", "Reset", "CheckPresence", "ReadBit", "ReadByte", "StartConversion", "GetTemperature"],
      (assemble m none).isSome = true) ∧
    (∀ i ∈ [Instr.opInitialize 0, .opReset 0, .opCheckPresence 0, .opReadBit 0, .opReadByte 0, .opWriteByte 0xFF,
      .opStartConversion 0, .opGetTemperature 0], i.assembled = true) := by
  simp [assemble, Instr.assembled]

theorem witness_IdleEngineOnlyLetsTimePass :
    let s := watched .byPhase [{ gap := 750000 }] idleLater
    s.env.present.rst = false ∧ s.flags.busy = false ∧ s.env.present.cmdValid = false ∧
    s.env.present.gap = 750000 := by decide

theorem witness_HostProgramRunsLineByLine :
    AtRest idleLater ∧ ([HostLine.resetPresence, .wait 5, .command 0x5CC].flatMap HostLine.inputs).length = 4 := by
  decide

/-- The shortest and the longest delay. -/
theorem witness_DelayTakesItsTicks :
    ∀ n ∈ [1, 750], (inPulse n).flags.busy = true ∧ (inPulse n).env.view = .byMicroOperation ∧
      (inPulse n).env.host = [] ∧ 0 < (inPulse n).seq.dly.toNat := by decide

/-- The delay after a poll that read on, with `polls` polls counted before. -/
def inPollDelay (rp : RpState) (polls : Nat) : State where
  regs := State.reset.regs
  flags := { State.reset.flags with busy := true }
  seq := { State.reset.seq with opr := 2, cs := .prim, rp := rp, poll := BitVec.ofNat 8 polls, dly := 1 }
  env := { State.reset.env with view := .byMicroOperation }
  obs := State.reset.obs

/-- In a poll phase: below the bound and at it; outside: `witness_DelayTakesItsTicks`. -/
theorem witness_DelayTakesItsTicks_polls :
    ∀ c ∈ [(RpState.prA, 198, 200), (.prA, 199, 200), (.prB, 238, 240), (.prB, 239, 240)],
      let s := inPollDelay c.1 c.2.1
      s.flags.busy = true ∧ s.env.view = .byMicroOperation ∧ s.env.host = [] ∧ 0 < s.seq.dly.toNat ∧
      s.seq.bs = .idle ∧ ((s.seq.rp = .prA ∧ c.2.2 = 200) ∨ (s.seq.rp = .prB ∧ c.2.2 = 240)) ∧
      (s.seq.poll.toNat + 1 = c.2.2 ∨ s.seq.poll.toNat + 2 = c.2.2) := by decide

/-- A hardware reset, a busy engine, an idle engine. -/
theorem witness_ResultPortsAreReadableAfterTheirOperations :
    (watched .byPhase [{ rst := true }] (inPulse 300)).env.present.rst = true ∧
    step (watched .byPhase [{ rst := true }] (inPulse 300)) =
      .next (stepped (watched .byPhase [{ rst := true }] (inPulse 300))) ∧
    (inPulse 300).flags.busy = true ∧ idleLater.flags.busy = false :=
  ⟨by decide, by simp [stepped, step, watched, Env.present], rfl, rfl⟩

/-- Notes of each port, held in a state in which a step ends an operation that writes ABSENT. -/
theorem witness_StepKeepsResultsHeld :
    Legal pollEnding ∧ ResultsHeld { absent := some false, rdata := some 0, temp := some 0 } pollEnding ∧
    step pollEnding = .next (stepped pollEnding) :=
  ⟨pollEnding_legal, ⟨fun _ _ => .inr (by decide), fun _ h => .inl (Option.some.inj h), fun _ h => .inl (Option.some.inj h)⟩, rfl⟩

/-- Each port becomes readable in some run: Initialize, ReadBit, GetTemperature. -/
theorem witness_ReadableResultIsTheLastOneWritten :
    ∀ c ∈ [(ResultPort.absent, presenting 0x000), (.rdata, presenting 0x300), (.temp, presenting 0x700)],
      let s := { State.reset with env := { view := .byOperation, host := [c.2], dqIn := List.replicate 416 true, draws := 0 } }
      MayReadResults c.1 (Results.nothing.afterStep s (stepped s)) (stepped s) := by decide +kernel

/-- Straight after reset no port may be read (10_state.md R46: not a result). -/
theorem test_no_result_readable_at_reset (p : ResultPort) : ¬MayReadResults p .nothing State.reset := by
  cases p <;> decide

/-- The table of R39: Reset makes no port valid, GetTemperature `absent` and `temp`. -/
theorem test_ports_written_by_operations :
    [ResultPort.absent, .rdata, .temp].map (·.writtenBy 1) = [false, false, false] ∧
    [ResultPort.absent, .rdata, .temp].map (·.writtenBy 7) = [true, false, true] ∧
    [ResultPort.absent, .rdata, .temp].map (·.writtenBy 4) = [false, true, false] := by decide

/-- Every state of CS but IDLE, and CONV in both composite operations. -/
theorem witness_PhaseStepFollowsTheTable :
    ∀ op ∈ [(6 : OpCode), 7], ∀ c ∈ [CsState.rp1, .skip1, .conv, .rp2, .skip2, .rdsp, .rdlo, .rdhi, .dec, .prim, .init],
      let s := standing op c .byPhase
      s.env.present.rst = false ∧ s.flags.busy = true ∧ s.env.view = .byPhase ∧ atPhaseStart s = true ∧
      s.seq.cs ≠ .idle := by decide

/-- The words of each operation, at both ends of ARG. -/
theorem witness_WordsOfTheOperations :
    ∀ k : Fin 8, ∀ arg ∈ [(0x000 : CommandWord), 0x0FF],
      (BitVec.ofNat 11 (256 * k.val) ||| arg) &&& 0x700 = BitVec.ofNat 11 (256 * k.val) := by decide

theorem witness_GetTemperatureReadsAndDecodes :
    ∃ p1 p2 n, p1 = pollOutcome State.reset.env 0 ∧ p2 = pollOutcome State.reset.env p1.answers ∧
      n = p1.answers + p2.answers := ⟨_, _, _, rfl, rfl, rfl⟩

theorem witness_WireCommandsSendTheirByte :
    ∀ p ∈ [(Instr.wireSkipRom, (0xCC : Byte)), (.wireConvertT, 0x44), (.wireReadScratchpad, 0xBE)],
      (p.1 = .wireSkipRom ∧ p.2 = 0xCC) ∨ (p.1 = .wireConvertT ∧ p.2 = 0x44) ∨
      (p.1 = .wireReadScratchpad ∧ p.2 = 0xBE) := by decide

theorem witness_RegistersChange_rdata_readBit :
    let s := readEnding 3 .prim .idle
    Legal s ∧ s.env.view = .byMicroOperation ∧ s.env.present.rst = false ∧ step s = .next (stepped s) ∧
    (stepped s).regs.rdata ≠ s.regs.rdata := ⟨readEnding_legal (by simp), rfl, by decide, rfl, by decide⟩

theorem witness_RegistersChange_rdata_readByte :
    let s := readEnding 4 .prim .rd
    Legal s ∧ s.env.view = .byMicroOperation ∧ s.env.present.rst = false ∧ step s = .next (stepped s) ∧
    (stepped s).regs.rdata ≠ s.regs.rdata := ⟨readEnding_legal (by simp), rfl, by decide, rfl, by decide⟩

theorem witness_RegistersChange_lo :
    let s := readEnding 7 .rdlo .rd
    Legal s ∧ s.env.view = .byMicroOperation ∧ s.env.present.rst = false ∧ step s = .next (stepped s) ∧
    (stepped s).regs.lo ≠ s.regs.lo := ⟨readEnding_legal (by simp), rfl, by decide, rfl, by decide⟩

theorem witness_RegistersChange_hi :
    let s := readEnding 7 .rdhi .rd
    Legal s ∧ s.env.view = .byMicroOperation ∧ s.env.present.rst = false ∧ step s = .next (stepped s) ∧
    (stepped s).regs.hi ≠ s.regs.hi := ⟨readEnding_legal (by simp), rfl, by decide, rfl, by decide⟩

theorem witness_RegistersChange_decode :
    let s := standing 7 .dec .byMicroOperation
    Legal s ∧ s.env.view = .byMicroOperation ∧ s.env.present.rst = false ∧ step s = .next (stepped s) ∧
    (stepped s).regs.mag16 ≠ s.regs.mag16 ∧ (stepped s).regs.temp ≠ s.regs.temp ∧
    (stepped s).flags.sign ≠ s.flags.sign :=
  ⟨standing_dec_legal _, rfl, by decide, rfl, by decide, by decide, by decide⟩

theorem witness_RegistersChange_absent :
    Legal pollEnding ∧ pollEnding.env.view = .byMicroOperation ∧ pollEnding.env.present.rst = false ∧
    step pollEnding = .next (stepped pollEnding) ∧ (stepped pollEnding).flags.absent ≠ pollEnding.flags.absent :=
  ⟨pollEnding_legal, rfl, by decide, rfl, by decide⟩

theorem witness_DurationsOfTheOperations (arg : Byte) :
    ∀ i ∈ [Instr.opInitialize arg, .opReset arg, .opCheckPresence arg, .opReadBit arg, .opReadByte arg,
        .opWriteByte arg, .opStartConversion arg, .opGetTemperature arg], ∃ lo hi low : Nat,
      (i = .opInitialize arg ∧ lo = 765 ∧ hi = 1204 ∧ low = 750) ∨
      (i = .opReset arg ∧ lo = 765 ∧ hi = 765 ∧ low = 750) ∨
      (i = .opCheckPresence arg ∧ lo = 0 ∧ hi = 439 ∧ low = 0) ∨
      (i = .opReadBit arg ∧ lo = 64 ∧ hi = 64 ∧ low = 2) ∨ (i = .opReadByte arg ∧ lo = 512 ∧ hi = 512 ∧ low = 16) ∨
      (i = .opWriteByte arg ∧ lo = 496 ∧ hi = 496 ∧ low = 480 - 58 * ((List.range 8).countP fun k => arg.getLsbD k)) ∨
      (i = .opStartConversion arg ∧ lo = 1757 ∧ hi = 2196 ∧ low = 1362) ∨
      (i = .opGetTemperature arg ∧ lo = 4538 ∧ hi = 5416 ∧ low = 2524) := by simp

/-- Both ends of the counts of each clause. -/
theorem witness_CheckPresenceOnWrittenStreams :
    (∃ s : State, s.env.dqIn = List.replicate 200 true ++ []) ∧
    (∀ p ∈ [(0, 0), (199, 239)], p.1 < 200 ∧ p.2 < 240 ∧ ∃ s : State,
      s.env.dqIn = List.replicate p.1 true ++ [false] ++ List.replicate p.2 false ++ [true] ++ []) ∧
    (∀ a ∈ [0, 199], a < 200 ∧ ∃ s : State,
      s.env.dqIn = List.replicate a true ++ [false] ++ List.replicate 240 false ++ []) := by
  refine ⟨⟨resting _, rfl⟩, fun p hp => ?_, fun a ha => ?_⟩
  · have h : p.1 < 200 ∧ p.2 < 240 := by
      revert p
      decide
    exact ⟨h.1, h.2, resting _, rfl⟩
  · have h : a < 200 := by
      revert a
      decide
    exact ⟨h, resting _, rfl⟩

/-- Every row of the timeline. -/
theorem witness_TimelineOfGetTemperature :
    AtRest idleLater ∧ opOf 0x7FF = 7 ∧ ∃ c1 c2, c1 = (pollOutcome idleLater.env 0).time ∧
      c2 = (pollOutcome idleLater.env (pollOutcome idleLater.env 0).answers).time ∧
      ∀ k, k ≤ 9 → ∃ cs ends, (k, cs, ends) ∈ [(0, CsState.rp1, 0), (1, .skip1, 765 + c1), (2, .conv, 1261 + c1),
        (3, .rp2, 1757 + c1), (4, .skip2, 2522 + c1 + c2), (5, .rdsp, 3018 + c1 + c2), (6, .rdlo, 3514 + c1 + c2),
        (7, .rdhi, 4026 + c1 + c2), (8, .dec, 4538 + c1 + c2), (9, .idle, 4538 + c1 + c2)] := by
  refine ⟨by decide, by decide, _, _, rfl, rfl, fun k hk => ?_⟩
  interval_cases k <;> simp

theorem witness_EightReadBitsSeeTheByte : (7 : Nat) < 8 := by decide

/-- Both paths of the decode: HI = 0xFF and HI = 7. -/
theorem witness_DecodeIsTheClosedForm :
    ∀ hi ∈ [(0xFF : Byte), 7, 8], let s := setHi hi (standing 7 .dec .byPhase)
      s.env.present.rst = false ∧ s.flags.busy = true ∧ atPhaseStart s = true ∧ s.seq.cs = .dec := by decide

/-- Both ends of k: raw 0xFFFF and raw 0x0800. -/
theorem witness_DecodeAddsNoOne :
    256 * (0xFF : Byte).toNat + (0xFF : Byte).toNat = 65536 - 1 ∧
    256 * (0x08 : Byte).toNat + (0x00 : Byte).toNat = 65536 - 63488 := by decide

theorem witness_NoDeviceReadsZero :
    ∀ k, k < 416 → (resting (List.replicate 416 true)).env.answer k = true := by decide +kernel

end Sys2Proof.Tests
end

section
/-! PROOFS. Where CS goes when its state has finished, and which fields one step of a busy engine can change. -/

namespace Sys2Proof.Machine

/-! ### CS's state has finished -/

/-- CS's state is the last one of its operation: column "next" of 10_state.md R32 is IDLE. -/
def lastPhase (q : Sequencer) : Prop := q.cs = .prim ∨ q.cs = .init ∨ q.cs = .dec ∨ (q.cs = .conv ∧ q.opr ≠ 7)

/-- The state of CS after one that is not the last of its operation (R32, column "next"). -/
def followingPhase : CsState → CsState
  | .rp1 => .skip1
  | .skip1 => .conv
  | .conv => .rp2
  | .rp2 => .skip2
  | .skip2 => .rdsp
  | .rdsp => .rdlo
  | .rdlo => .rdhi
  | .rdhi => .dec
  | .idle | .dec | .prim | .init => .idle

theorem advance_of_last {s : State} (h : lastPhase s.seq) : advance s = complete s := by
  obtain h | h | h | ⟨h, h7⟩ := h <;> simp_all [advance]

theorem advance_of_not_last {s : State} (h : ¬lastPhase s.seq) (hc : s.seq.cs ≠ .idle) :
    advance s = setCs (followingPhase s.seq.cs) s ∧ followingPhase s.seq.cs ≠ .idle := by
  cases hs : s.seq.cs <;> simp_all [lastPhase, advance, followingPhase]

/-- `advance` writes CS, and at a completion BUSY and `done`. -/
theorem advance_writes (s : State) : advance s =
    { s with
      seq.cs := (advance s).seq.cs
      flags.busy := (advance s).flags.busy
      obs.done := (advance s).obs.done } := by
  by_cases hc : s.seq.cs = .idle
  · have h : advance s = s := by simp [advance, hc]
    rw [h]
  · by_cases h : lastPhase s.seq
    · rw [advance_of_last h]; rfl
    · rw [(advance_of_not_last h hc).1]; rfl

@[simp] theorem advance_regs (s : State) : (advance s).regs = s.regs := by rw [advance_writes]
@[simp] theorem advance_absent (s : State) : (advance s).flags.absent = s.flags.absent := by rw [advance_writes]
@[simp] theorem advance_sign (s : State) : (advance s).flags.sign = s.flags.sign := by rw [advance_writes]
@[simp] theorem advance_outLow (s : State) : (advance s).flags.outLow = s.flags.outLow := by rw [advance_writes]
@[simp] theorem advance_opr (s : State) : (advance s).seq.opr = s.seq.opr := by rw [advance_writes]
@[simp] theorem advance_rp (s : State) : (advance s).seq.rp = s.seq.rp := by rw [advance_writes]
@[simp] theorem advance_bs (s : State) : (advance s).seq.bs = s.seq.bs := by rw [advance_writes]
@[simp] theorem advance_byt (s : State) : (advance s).seq.byt = s.seq.byt := by rw [advance_writes]
@[simp] theorem advance_bitcnt (s : State) : (advance s).seq.bitcnt = s.seq.bitcnt := by rw [advance_writes]
@[simp] theorem advance_poll (s : State) : (advance s).seq.poll = s.seq.poll := by rw [advance_writes]
@[simp] theorem advance_dly (s : State) : (advance s).seq.dly = s.seq.dly := by rw [advance_writes]
@[simp] theorem advance_slotBit (s : State) : (advance s).seq.slotBit = s.seq.slotBit := by rw [advance_writes]
@[simp] theorem advance_env (s : State) : (advance s).env = s.env := by rw [advance_writes]
@[simp] theorem advance_log (s : State) : (advance s).obs.log = s.obs.log := by rw [advance_writes]
@[simp] theorem advance_now (s : State) : (advance s).obs.now = s.obs.now := by rw [advance_writes]

/-! ### What the line and the inner machines leave alone -/

/-- The part of the state that neither a line action nor RP, BS and BY write while they run: the result registers and
their flags, BUSY, OPR, CS, the host's side and `done`. -/
structure Outer where
  rdata : Byte
  lo : Byte
  hi : Byte
  mag16 : Half
  temp : TempWord
  busy : Bool
  absent : Bool
  sign : Bool
  opr : OpCode
  cs : CsState
  view : View
  host : List HostInput
  done : Bool

/-- The outer part of a state. -/
def State.outer (s : State) : Outer where
  rdata := s.regs.rdata
  lo := s.regs.lo
  hi := s.regs.hi
  mag16 := s.regs.mag16
  temp := s.regs.temp
  busy := s.flags.busy
  absent := s.flags.absent
  sign := s.flags.sign
  opr := s.seq.opr
  cs := s.seq.cs
  view := s.env.view
  host := s.env.host
  done := s.obs.done

theorem outer_eq_iff {s m : State} : m.outer = s.outer ↔
    m.regs.rdata = s.regs.rdata ∧ m.regs.lo = s.regs.lo ∧ m.regs.hi = s.regs.hi ∧ m.regs.mag16 = s.regs.mag16 ∧
    m.regs.temp = s.regs.temp ∧ m.flags.busy = s.flags.busy ∧ m.flags.absent = s.flags.absent ∧
    m.flags.sign = s.flags.sign ∧ m.seq.opr = s.seq.opr ∧ m.seq.cs = s.seq.cs ∧ m.env.view = s.env.view ∧
    m.env.host = s.env.host ∧ m.obs.done = s.obs.done := by
  simp [State.outer]

/-- What a step of a busy engine does to the outer part of the state, said once for the two finer views. `polls` and
`reads` say when the step may end a poll and when it may write RDATA. -/
inductive Effect (polls reads : Prop) (s : State) : State → Prop
  /-- A busy engine in IDLE, which no legal state is (log 17). -/
  | enter (hc : s.seq.cs = .idle) : Effect polls reads s (setCs (csAfterAccept s.seq.opr) s)
  /-- The inner machines go on. -/
  | within (m : State) (h : m.outer = s.outer) : Effect polls reads s m
  /-- CS's state ends and no result is written. DEC does not end so. -/
  | ended (m : State) (h : m.outer = s.outer) (hc : s.seq.cs = .dec → atPhaseStart s = false) :
      Effect polls reads s (advance m)
  /-- A poll ends, and CS's state with it. -/
  | polled (m : State) (b : Bool) (hp : polls) (h : m.outer = s.outer) :
      Effect polls reads s (advance (setAbsent b m))
  /-- ReadBit or ReadByte ends. -/
  | read (m : State) (v : Byte) (hr : reads) (h : m.outer = s.outer) : Effect polls reads s (advance (setRdata v m))
  /-- RDLO ends. -/
  | low (m : State) (v : Byte) (hc : s.seq.cs = .rdlo) (h : m.outer = s.outer) :
      Effect polls reads s (advance (setLo v m))
  /-- RDHI ends. -/
  | high (m : State) (v : Byte) (hc : s.seq.cs = .rdhi) (h : m.outer = s.outer) :
      Effect polls reads s (advance (setHi v m))
  /-- DEC ends. -/
  | decoded (m : State) (hc : s.seq.cs = .dec) (h : m.outer = s.outer) : Effect polls reads s (advance (decodeTemp m))

/-- The engine is still busy and shows no `done`. -/
abbrev busyStill (t : State) : Prop := t.flags.busy = true ∧ t.obs.done = false

/-- The operation has just completed. -/
abbrev justCompleted (t : State) : Prop := t.flags.busy = false ∧ t.obs.done = true ∧ t.seq.cs = .idle

theorem advance_completes {s : State} (h : busyStill s) :
    busyStill (advance s) ∨ (justCompleted (advance s) ∧ lastPhase s.seq) := by
  by_cases hc : s.seq.cs = .idle
  · have ha : advance s = s := by simp [advance, hc]
    exact .inl (by rwa [ha])
  · by_cases hl : lastPhase s.seq
    · rw [advance_of_last hl]
      exact .inr ⟨⟨rfl, rfl, rfl⟩, hl⟩
    · rw [(advance_of_not_last hl hc).1]
      exact .inl h

/-- A step of a busy engine either leaves it busy or completes the operation, and that only from a last state of CS. -/
theorem Effect.completes {p r : Prop} {s t : State} (h : Effect p r s t) (hs : busyStill s) :
    busyStill t ∨ (justCompleted t ∧ lastPhase s.seq) := by
  have keeps : ∀ {m : State}, m.outer = s.outer → busyStill m ∧ (lastPhase m.seq → lastPhase s.seq) := fun hm => by
    simp only [outer_eq_iff] at hm
    simpa [busyStill, lastPhase, hm] using hs
  have ends : ∀ {m u : State}, m.outer = s.outer → u.flags.busy = m.flags.busy → u.obs = m.obs → u.seq = m.seq →
      busyStill (advance u) ∨ (justCompleted (advance u) ∧ lastPhase s.seq) := fun {m u} hm hb ho hq => by
    obtain ⟨hbusy, hlast⟩ := keeps hm
    exact (advance_completes (s := u) ⟨hb.trans hbusy.1, ho ▸ hbusy.2⟩).imp_right fun h => ⟨h.1, hlast (hq ▸ h.2)⟩
  cases h with
  | enter hc => exact .inl hs
  | within _ h => exact .inl (keeps h).1
  | ended m h hc => exact ends h rfl rfl rfl
  | polled m b hp h => exact ends h rfl rfl rfl
  | read m v hr h => exact ends h rfl rfl rfl
  | low m v hc h => exact ends h rfl rfl rfl
  | high m v hc h => exact ends h rfl rfl rfl
  | decoded m hc h => exact ends h rfl rfl rfl

/-! ### One micro-operation step -/

/-- RP polls the line (10_state.md R33). -/
abbrev polling (q : Sequencer) : Prop := q.rp = .prA ∨ q.rp = .prB

/-- A read slot ends whose bit, or whose byte, is the result of a primitive operation (R22). -/
abbrev resultSlotEnds (q : Sequencer) : Prop := q.bs = .rPad ∧ (q.byt = .rd → q.cs = .prim)

theorem boundPolls_effect {s u : State} {r : Prop} (n : Nat) (hp : polling s.seq) (h : u.outer = s.outer) :
    Effect (polling s.seq) r s (boundPolls n u) := by
  unfold boundPolls
  split
  · exact .polled (u |> setRp .idle |> setPoll 0) true hp h
  · exact .within _ h

theorem tick_effect (s : State) : Effect (polling s.seq) (resultSlotEnds s.seq) s (tick s) := by
  unfold tick
  split
  · have hd : ∀ u : State, u.seq.rp = s.seq.rp → u.outer = s.outer →
        Effect (polling s.seq) (resultSlotEnds s.seq) s (delayEnded u) := by
      intro u hrp hu
      unfold delayEnded
      split
      · next hA => exact boundPolls_effect _ (.inl (hrp ▸ hA)) hu
      · next hB => exact boundPolls_effect _ (.inr (hrp ▸ hB)) hu
      · exact .within _ hu
    exact hd _ rfl rfl
  · exact .within _ rfl

theorem slotCounted_id_effect {s : State} {p r : Prop} (hb : s.seq.bs ≠ .idle) :
    Effect p r s (slotCounted id s) := by
  unfold slotCounted boundSlots
  split
  · exact .ended (s |> setBs .idle |> countBit |> setByt .idle) rfl fun _ => by simp [atPhaseStart, hb]
  · exact .within _ rfl

theorem storeByte_effect {s u : State} {p : Prop} (hb : s.seq.bs ≠ .idle) (h : u.outer = s.outer) :
    Effect p (s.seq.cs = .prim) s (advance (storeByte u)) := by
  have hcs : u.seq.cs = s.seq.cs := congrArg Outer.cs h
  unfold storeByte
  split
  · next hc => exact .low u _ (hcs ▸ hc) h
  · next hc => exact .high u _ (hcs ▸ hc) h
  · next hc => exact .read u _ (hcs ▸ hc) h
  all_goals exact .ended u h fun _ => by simp [atPhaseStart, hb]

theorem Effect.mono {p p' r r' : Prop} {s t : State} (hp : p → p') (hr : r → r') (h : Effect p r s t) :
    Effect p' r' s t := by
  cases h with
  | enter hc => exact .enter hc
  | within _ h => exact .within _ h
  | ended m h hc => exact .ended m h hc
  | polled m b hp' h => exact .polled m b (hp hp') h
  | read m v hr' h => exact .read m v (hr hr') h
  | low m v hc h => exact .low m v hc h
  | high m v hc h => exact .high m v hc h
  | decoded m hc h => exact .decoded m hc h

theorem readSlotEnded_effect {s : State} {p : Prop} (hb : s.seq.bs = .rPad) :
    Effect p (resultSlotEnds s.seq) s (readSlotEnded s) := by
  have hb' : s.seq.bs ≠ .idle := by simp [hb]
  unfold readSlotEnded
  split
  · unfold slotCounted boundSlots
    split
    · exact Effect.mono id (fun hc => ⟨hb, fun _ => hc⟩) (storeByte_effect hb' rfl)
    · exact .within _ rfl
  · next hy => exact .read (s |> setSlotBit none |> setBs .idle) _ ⟨hb, fun h => absurd h (by simp [hy])⟩ rfl
  · next hy => exact .read (s |> setSlotBit none |> setBs .idle) _ ⟨hb, fun h => absurd h (by simp [hy])⟩ rfl

theorem startWriteSlot_outer (s : State) : (startWriteSlot s).outer = s.outer := by
  unfold startWriteSlot; split <;> rfl

theorem startPrimitive_effect {s : State} {p r : Prop} (hc : s.seq.cs = .prim) : Effect p r s (startPrimitive s) := by
  unfold startPrimitive
  split
  · exact .within _ rfl
  · exact .within _ rfl
  · exact .within _ rfl
  · exact .within _ rfl
  · exact .within _ rfl
  · exact .ended s rfl (by simp [hc])

theorem startPhase_effect (s : State) {p r : Prop} : Effect p r s (startPhase s) := by
  unfold startPhase
  split
  · next hc => exact .enter hc
  · exact .within _ rfl
  · exact .within _ rfl
  · exact .within _ rfl
  · exact .within _ rfl
  · exact .within _ rfl
  · exact .within _ rfl
  · exact .within _ rfl
  · exact .within _ rfl
  · next hc => exact .decoded s hc rfl
  · next hc => exact startPrimitive_effect hc
  · exact .within _ rfl

/-- Everything a micro-operation step can do to the outer part of the state, in any state. -/
theorem microStep_effect (s : State) : Effect (polling s.seq) (resultSlotEnds s.seq) s (microStep s) := by
  unfold microStep
  split
  · exact tick_effect s
  cases hb : s.seq.bs with
  | w1Low => exact .within _ rfl
  | w1Rec => exact slotCounted_id_effect (by simp [hb])
  | w0Low => exact .within _ rfl
  | w0Rec => exact slotCounted_id_effect (by simp [hb])
  | rLow => exact .within _ rfl
  | rWait => exact .within _ rfl
  | rPad => exact readSlotEnded_effect hb
  | idle =>
    cases hy : s.seq.byt with
    | wr => exact .within _ (startWriteSlot_outer s)
    | rd => exact .within _ rfl
    | idle =>
      cases hr : s.seq.rp with
      | rstLow => exact .within _ rfl
      | rstRec =>
        simp only [pulseEnded]
        split
        · exact .ended (setRp .idle s) rfl fun _ => by simp [atPhaseStart, hr]
        · exact .within _ rfl
      | prA =>
        simp only [pollA]
        split <;> exact .within _ rfl
      | prB =>
        simp only [pollB]
        split
        · exact .polled (s |> sampled |> setRp .idle |> setPoll 0) false (.inr hr) rfl
        · exact .within _ rfl
      | idle => exact startPhase_effect s

end Sys2Proof.Machine
end

section
/-! PROOFS. One state of CS as a whole: its effect, and a whole operation as acceptance and a run of states of CS. -/

namespace Sys2Proof.Machine

/-! ### The sub-sequences and the outer part -/

theorem resetSeq_outer (s : State) : (resetSeq s).outer = s.outer := by rw [resetSeq_eq]; rfl

theorem writeByteSeq_outer (v : Byte) (s : State) : (writeByteSeq v s).outer = s.outer := by rw [writeByteSeq_eq]; rfl

theorem readByteSeq_outer (s : State) : (readByteSeq s).outer = s.outer := by rw [readByteSeq_eq]; rfl

theorem readSlot_outer (s : State) : (readSlot s).2.outer = s.outer := by rw [readSlot_state]; rfl

/-- A poll writes ABSENT. -/
theorem presenceSeq_writes (s : State) : ∃ m b, presenceSeq s = setAbsent b m ∧ m.outer = s.outer := by
  exact ⟨setAbsent s.flags.absent (presenceSeq s), (pollOutcome s.env 0).absent, by rw [presenceSeq_eq]; rfl,
    by rw [presenceSeq_eq]; rfl⟩

/-! ### One state of CS -/

/-- CS runs a poll (10_state.md R32). -/
abbrev pollingPhase (q : Sequencer) : Prop := pulsesAndPolls q ∨ (q.cs = .prim ∧ q.opr = 2)

/-- CS runs ReadBit or ReadByte (R32, row PRIM). -/
abbrev readingPhase (q : Sequencer) : Prop := q.cs = .prim ∧ (q.opr = 3 ∨ q.opr = 4)

/-- A sub-sequence that ends in a poll. -/
theorem polled_effect {s u : State} {r : Prop} (hp : pollingPhase s.seq) (hu : u.outer = s.outer) :
    Effect (pollingPhase s.seq) r s (advance (presenceSeq u)) := by
  obtain ⟨m, b, hm, ho⟩ := presenceSeq_writes u
  rw [hm]
  exact .polled m b hp (ho.trans hu)

theorem opr_eq_of_toNat {op : OpCode} {n : Nat} (h : op.toNat = n) : op = BitVec.ofNat 3 n := by
  rw [← h, BitVec.ofNat_toNat, BitVec.setWidth_eq]

theorem primitiveSeq_effect {s : State} (hc : s.seq.cs = .prim) :
    Effect (pollingPhase s.seq) (readingPhase s.seq) s (advance (primitiveSeq s)) := by
  have hd : s.seq.cs = .dec → atPhaseStart s = false := by simp [hc]
  unfold primitiveSeq
  split
  · exact .ended _ (resetSeq_outer s) hd
  · next h => exact polled_effect (.inr ⟨hc, opr_eq_of_toNat h⟩) rfl
  · next h => exact .read _ _ ⟨hc, .inl (opr_eq_of_toNat h)⟩ (readSlot_outer s)
  · next h => exact .read _ _ ⟨hc, .inr (opr_eq_of_toNat h)⟩ (readByteSeq_outer s)
  · exact .ended _ (writeByteSeq_outer _ s) hd
  · exact .ended _ rfl hd

/-- Everything a phase step can do to the outer part of the state, in any state. -/
theorem phaseStep_effect (s : State) :
    Effect (pollingPhase s.seq) (readingPhase s.seq) s (phaseStep s) := by
  unfold phaseStep
  split
  · next hc => exact .enter hc
  unfold phaseSeq
  split
  · next hne _ hc => exact absurd hc hne
  · next hc => exact polled_effect (.inl (.inl hc)) (resetSeq_outer s)
  · next hc => exact polled_effect (.inl (.inr (.inl hc))) (resetSeq_outer s)
  · next hc => exact .ended _ (writeByteSeq_outer _ s) (by simp [hc])
  · next hc => exact .ended _ (writeByteSeq_outer _ s) (by simp [hc])
  · next hc => exact .ended _ (writeByteSeq_outer _ s) (by simp [hc])
  · next hc => exact .ended _ (writeByteSeq_outer _ s) (by simp [hc])
  · next hc => exact .low _ _ hc (readByteSeq_outer s)
  · next hc => exact .high _ _ hc (readByteSeq_outer s)
  · next hc => exact .decoded s hc rfl
  · next hc => exact primitiveSeq_effect hc
  · next hc => exact polled_effect (.inl (.inr (.inr hc))) (resetSeq_outer (release s))

/-! ### Runs of a busy engine -/

/-- `n` steps of `f`, the engine busy before each. -/
inductive BusyRun (f : State → State) : Nat → State → State → Prop
  | nil (s : State) : BusyRun f 0 s s
  | cons {n : Nat} {s t : State} (hb : s.flags.busy = true) (h : BusyRun f n (f s) t) : BusyRun f (n + 1) s t

theorem BusyRun.append {f : State → State} {m n : Nat} {s t u : State} (h : BusyRun f m s t) (h' : BusyRun f n t u) :
    BusyRun f (m + n) s u := by
  induction h with
  | nil => rwa [Nat.zero_add]
  | cons hb _ ih => rw [Nat.succ_add]; exact .cons hb (ih h')

/-- What every step of a busy engine keeps, a run keeps. -/
theorem BusyRun.keeps {f : State → State} {P : State → Prop} (hf : ∀ s, s.flags.busy = true → P s → P (f s)) {n : Nat}
    {s t : State} (h : BusyRun f n s t) (hs : P s) : P t := by
  induction h with
  | nil => exact hs
  | cons hb _ ih => exact ih (hf _ hb hs)

/-! ### The sub-sequences and the sequencer -/

@[simp] theorem resetPresence_busy (s : State) : (resetPresence s).flags.busy = s.flags.busy := by
  rw [resetPresence_eq]
@[simp] theorem resetPresence_cs (s : State) : (resetPresence s).seq.cs = s.seq.cs := by rw [resetPresence_eq]
@[simp] theorem resetPresence_opr (s : State) : (resetPresence s).seq.opr = s.seq.opr := by rw [resetPresence_eq]
@[simp] theorem writeByteSeq_busy (v : Byte) (s : State) : (writeByteSeq v s).flags.busy = s.flags.busy :=
  congrArg Outer.busy (writeByteSeq_outer v s)
@[simp] theorem writeByteSeq_cs (v : Byte) (s : State) : (writeByteSeq v s).seq.cs = s.seq.cs :=
  congrArg Outer.cs (writeByteSeq_outer v s)
@[simp] theorem writeByteSeq_opr (v : Byte) (s : State) : (writeByteSeq v s).seq.opr = s.seq.opr :=
  congrArg Outer.opr (writeByteSeq_outer v s)
@[simp] theorem readByteSeq_busy (s : State) : (readByteSeq s).flags.busy = s.flags.busy :=
  congrArg Outer.busy (readByteSeq_outer s)
theorem readByteToLo_busy (s : State) : (shregToLo (readByteSeq s)).flags.busy = s.flags.busy := readByteSeq_busy s
theorem readByteToHi_busy (s : State) : (shregToHi (readByteSeq s)).flags.busy = s.flags.busy := readByteSeq_busy s
@[simp] theorem readByteSeq_cs (s : State) : (readByteSeq s).seq.cs = s.seq.cs :=
  congrArg Outer.cs (readByteSeq_outer s)
@[simp] theorem primitiveSeq_cs (s : State) : (primitiveSeq s).seq.cs = s.seq.cs := by
  unfold primitiveSeq
  split <;> simp [resetSeq_eq, presenceSeq_eq, readBitSeq, readSlot_state]

/-! ### The table of CS (10_state.md R32), row by row: what runs in a state and the state that follows -/

section
variable {s : State}

theorem phaseStep_rp1 (h : s.seq.cs = .rp1) : phaseStep s = setCs .skip1 (resetPresence s) := by
  simp [phaseStep, phaseSeq, advance, h]
theorem phaseStep_skip1 (h : s.seq.cs = .skip1) : phaseStep s = setCs .conv (writeByteSeq Config.cmdSkipRom s) := by
  simp [phaseStep, phaseSeq, advance, h]
theorem phaseStep_conv_last (h : s.seq.cs = .conv) (ho : s.seq.opr ≠ 7) :
    phaseStep s = complete (writeByteSeq Config.cmdConvertT s) := by
  have ho' : s.seq.opr ≠ 7#3 := ho
  simp [phaseStep, phaseSeq, advance, h, ho']
theorem phaseStep_conv_next (h : s.seq.cs = .conv) (ho : s.seq.opr = 7) :
    phaseStep s = setCs .rp2 (writeByteSeq Config.cmdConvertT s) := by
  simp [phaseStep, phaseSeq, advance, h, ho]
theorem phaseStep_rp2 (h : s.seq.cs = .rp2) : phaseStep s = setCs .skip2 (resetPresence s) := by
  simp [phaseStep, phaseSeq, advance, h]
theorem phaseStep_skip2 (h : s.seq.cs = .skip2) : phaseStep s = setCs .rdsp (writeByteSeq Config.cmdSkipRom s) := by
  simp [phaseStep, phaseSeq, advance, h]
theorem phaseStep_rdsp (h : s.seq.cs = .rdsp) : phaseStep s = setCs .rdlo (writeByteSeq Config.cmdReadSp s) := by
  simp [phaseStep, phaseSeq, advance, h]
theorem phaseStep_rdlo (h : s.seq.cs = .rdlo) : phaseStep s = setCs .rdhi (shregToLo (readByteSeq s)) := by
  simp [phaseStep, phaseSeq, advance, h]
theorem phaseStep_rdhi (h : s.seq.cs = .rdhi) : phaseStep s = setCs .dec (shregToHi (readByteSeq s)) := by
  simp [phaseStep, phaseSeq, advance, h]
theorem phaseStep_dec (h : s.seq.cs = .dec) : phaseStep s = complete (decodeTemp s) := by
  simp [phaseStep, phaseSeq, advance, h]
theorem phaseStep_prim (h : s.seq.cs = .prim) : phaseStep s = complete (primitiveSeq s) := by
  simp [phaseStep, phaseSeq, advance, h]
theorem phaseStep_init (h : s.seq.cs = .init) : phaseStep s = complete (presenceSeq (resetSeq (release s))) := by
  simp [phaseStep, phaseSeq, advance, h, resetSeq_eq, presenceSeq_eq]

end

/-! ### A whole operation as a run of states of CS -/

/-- How many states of CS an operation runs after acceptance (44_command_sequences.md R195). -/
def phaseCount (op : OpCode) : Nat := if op = 6 then 3 else if op = 7 then 9 else 1

/-- A run whose first state of CS is its operation's last. -/
theorem last_run {s t : State} (hb : s.flags.busy = true) (he : phaseStep s = t) : BusyRun phaseStep 1 s t :=
  .cons hb (he ▸ .nil _)

/-- A run whose first state of CS is not its operation's last. -/
theorem next_run {n : Nat} {s u t : State} (hb : s.flags.busy = true) {c : CsState} (he : phaseStep s = setCs c u)
    (hu : u.flags.busy = s.flags.busy) (h : (setCs c u).flags.busy = true → BusyRun phaseStep n (setCs c u) t) :
    BusyRun phaseStep (n + 1) s t :=
  .cons hb (he ▸ h (hu.trans hb))

theorem primitive_run {s t : State} (hb : s.flags.busy = true) (hc : s.seq.cs = .prim) (ht : primitiveSeq s = t) :
    BusyRun phaseStep 1 s (complete t) :=
  last_run hb (ht ▸ phaseStep_prim hc)

/-- RP1 and SKIP1, which both composite operations begin with, and `f` of the state CONV then starts from. -/
theorem startConv_run {n : Nat} {s : State} (f : State → State) (hb : s.flags.busy = true) (hc : s.seq.cs = .rp1)
    (h : ∀ u : State, u.seq.cs = .conv → u.seq.opr = s.seq.opr → u.flags.busy = true → BusyRun phaseStep n u (f u)) :
    BusyRun phaseStep (n + 2) s
      (f (setCs .conv (writeByteSeq Config.cmdSkipRom (setCs .skip1 (resetPresence s))))) :=
  next_run hb (phaseStep_rp1 hc) (resetPresence_busy _) fun hb =>
  next_run hb (phaseStep_skip1 rfl) (writeByteSeq_busy _ _) fun hb => h _ rfl (by simp) hb

/-- RP2 to DEC, the second half of GetTemperature. -/
theorem readScratchpad_run {s : State} (hb : (setCs .rp2 s).flags.busy = true) :
    BusyRun phaseStep 6 (setCs .rp2 s) (complete (decodeTemp (setCs .dec (readScratchpadSeq s)))) := by
  unfold readScratchpadSeq
  exact
    next_run hb (phaseStep_rp2 rfl) (resetPresence_busy _) fun hb =>
    next_run hb (phaseStep_skip2 rfl) (writeByteSeq_busy _ _) fun hb =>
    next_run hb (phaseStep_rdsp rfl) (writeByteSeq_busy _ _) fun hb =>
    next_run hb (phaseStep_rdlo rfl) (readByteToLo_busy _) fun hb =>
    next_run hb (phaseStep_rdhi rfl) (readByteToHi_busy _) fun hb =>
    last_run hb (phaseStep_dec rfl)

/-- A whole operation is acceptance and then a run of states of CS, in any state. -/
theorem exec_eq_phases (w : CommandWord) (s : State) : ∃ t, exec (decodeCommand w) s = .next t ∧
    BusyRun phaseStep (phaseCount (opOf w)) (accept (opOf w) (argOf w) s) t := by
  obtain ⟨ho, hd⟩ | ⟨ho, hd⟩ | ⟨ho, hd⟩ | ⟨ho, hd⟩ | ⟨ho, hd⟩ | ⟨ho, hd⟩ | ⟨ho, hd⟩ | ⟨ho, hd⟩ :=
    decodeCommand_cases w <;> rw [hd, ho] <;> refine ⟨_, rfl, ?_⟩
  · exact last_run rfl (phaseStep_init rfl)
  · exact primitive_run rfl rfl (by simp [primitiveSeq])
  · exact primitive_run rfl rfl (by simp [primitiveSeq])
  · exact primitive_run rfl rfl (by simp [primitiveSeq])
  · exact primitive_run rfl rfl (by simp [primitiveSeq])
  · exact primitive_run rfl rfl (by simp [primitiveSeq])
  · exact startConv_run (fun u => complete (writeByteSeq Config.cmdConvertT u)) rfl rfl fun u hc ho hb =>
      last_run hb (phaseStep_conv_last hc (by simp [ho]))
  · exact startConv_run
      (fun u => complete (decodeTemp (setCs .dec (readScratchpadSeq (writeByteSeq Config.cmdConvertT u))))) rfl rfl
      fun u hc ho hb =>
        next_run hb (phaseStep_conv_next hc ho) (writeByteSeq_busy _ _) readScratchpad_run

end Sys2Proof.Machine
end

section
/-! PROOFS. Legal states: recorded traces, states in which no inner machine is at work, whole states of CS. -/

namespace Sys2Proof

open Sys2Proof.Machine

/-! ### Traces that leave the line as they found it -/

/-- A legal trace, newest event first, after which the line is released. -/
def Resting (log : List Event) : Prop := traceLegal log = true ∧ drivenAfter log = false

/-- Events, oldest first, that may follow any legal trace that ends with the line released, and end so themselves. -/
def Quiet (tr : List Event) : Prop := ∀ log, Resting log → Resting (tr.reverse ++ log)

theorem quiet_nil : Quiet [] := fun _ h => h

theorem Quiet.append {tr tr' : List Event} (h : Quiet tr) (h' : Quiet tr') : Quiet (tr ++ tr') := fun log hl => by
  rw [List.reverse_append, List.append_assoc]
  exact h' _ (h _ hl)

theorem quiet_flatten {trs : List (List Event)} (h : ∀ tr ∈ trs, Quiet tr) : Quiet trs.flatten := by
  induction trs with
  | nil => exact quiet_nil
  | cons tr trs ih =>
    exact (h tr List.mem_cons_self).append (ih fun tr' h' => h tr' (List.mem_cons_of_mem _ h'))

theorem quiet_flatMap {l : List Nat} {f : Nat → List Event} (h : ∀ k, Quiet (f k)) : Quiet (l.flatMap f) :=
  quiet_flatten fun tr htr => by
    obtain ⟨k, -, rfl⟩ := List.mem_map.mp htr
    exact h k

theorem quiet_release : Quiet [.Z] := fun _ ⟨hl, _⟩ => ⟨hl, rfl⟩

theorem quiet_sample (b : Bool) : Quiet [.S b] := fun log ⟨hl, hd⟩ => by simp [Resting, traceLegal, drivenAfter, hl, hd]

theorem quiet_resetTrace : Quiet resetTrace := fun log ⟨hl, hd⟩ => by
  simp [Resting, resetTrace, traceLegal, drivenAfter, hl, hd]

theorem quiet_writeSlotTrace (b : Bool) : Quiet (writeSlotTrace b) := fun log ⟨hl, hd⟩ => by
  cases b <;> simp [Resting, writeSlotTrace, traceLegal, drivenAfter, hl, hd]

theorem quiet_readSlotTrace (b : Bool) : Quiet (readSlotTrace b) := fun log ⟨hl, hd⟩ => by
  simp [Resting, readSlotTrace, traceLegal, drivenAfter, hl, hd]

theorem quiet_pollsTrace (b : Bool) (n : Nat) : Quiet (pollsTrace b n) :=
  quiet_flatten fun tr htr log ⟨hl, hd⟩ => by
    obtain ⟨-, rfl⟩ := List.mem_replicate.mp htr
    simp [Resting, traceLegal, drivenAfter, hl, hd]

theorem quiet_writeByteTrace (v : Byte) : Quiet (writeByteTrace v) := quiet_flatMap fun _ => quiet_writeSlotTrace _

theorem quiet_readByteTrace (e : Env) (k : Nat) : Quiet (readByteTrace e k) :=
  quiet_flatMap fun _ => quiet_readSlotTrace _

theorem quiet_pollOutcome (e : Env) (k : Nat) : Quiet (pollOutcome e k).trace := by
  unfold pollOutcome
  split
  · exact quiet_pollsTrace _ _
  · split
    · exact (((quiet_pollsTrace _ _).append (quiet_sample _)).append (quiet_pollsTrace _ _)).append (quiet_sample _)
    · exact ((quiet_pollsTrace _ _).append (quiet_sample _)).append (quiet_pollsTrace _ _)

/-! ### No inner machine at work -/

/-- BS and BY are idle, and the line is released, in the trace too. -/
structure SlotsIdle (s : State) : Prop where
  line : s.flags.outLow = false
  bs : s.seq.bs = .idle
  byt : s.seq.byt = .idle
  bitcnt : s.seq.bitcnt.toNat ≤ 8
  slotBit : s.seq.slotBit = none
  trace : Resting s.obs.log

/-- RP, BS and BY are idle with their counters, and the line is released. -/
structure MachinesIdle (s : State) : Prop extends SlotsIdle s where
  rp : s.seq.rp = .idle
  poll : s.seq.poll = 0
  dly : s.seq.dly = 0

theorem MachinesIdle.legal {s : State} (h : MachinesIdle s) (hb : s.flags.busy = false ↔ s.seq.cs = .idle)
    (hp : pathLegal s.seq) : Legal s where
  left := {
    busy_iff := hb
    idle_quiet := fun _ => ⟨h.rp, h.bs, h.byt⟩
    line := by simp [h.line, drivesLow, h.rp, h.bs]
    path := hp
    rp := by simpa [rpLegal, h.rp] using h.poll
    byt := by simpa [bytLegal, h.byt] using h.bitcnt
    bs := by simpa [bsLegal, h.bs] using h.slotBit
    dly := by simp [h.dly] }
  right := ⟨h.trace.1, h.trace.2.trans h.line.symm⟩

theorem Legal.machinesIdle {s : State} (h : Legal s) (hr : s.seq.rp = .idle) (hb : s.seq.bs = .idle)
    (hy : s.seq.byt = .idle) : MachinesIdle s := by
  obtain ⟨⟨-, -, line, -, rp, byt, bs, dly⟩, tr, dr⟩ := h
  have hl : s.flags.outLow = false := by simpa [drivesLow, hr, hb] using line
  exact {
    line := hl
    rp := hr
    bs := hb
    byt := hy
    bitcnt := by simpa [bytLegal, hy] using byt
    poll := by simpa [rpLegal, hr] using rp
    dly := BitVec.eq_of_toNat_eq (by simpa [delayLength, hr, hb] using dly)
    slotBit := by simpa [bsLegal, hb] using bs
    trace := ⟨tr, dr.trans hl⟩ }

theorem atPhaseStart_iff {s : State} : atPhaseStart s = true ↔
    s.seq.rp = .idle ∧ s.seq.bs = .idle ∧ s.seq.byt = .idle ∧ s.seq.dly = 0 := by
  simp [atPhaseStart, and_assoc]

theorem MachinesIdle.start {s : State} (h : MachinesIdle s) : atPhaseStart s = true :=
  atPhaseStart_iff.mpr ⟨h.rp, h.bs, h.byt, h.dly⟩

theorem Legal.machinesIdle_of_start {s : State} (h : Legal s) (ha : atPhaseStart s = true) : MachinesIdle s := by
  obtain ⟨hr, hb, hy, -⟩ := atPhaseStart_iff.mp ha
  exact h.machinesIdle hr hb hy

theorem Legal.machinesIdle_of_idle {s : State} (h : Legal s) (hb : s.flags.busy = false) : MachinesIdle s := by
  obtain ⟨hr, hs, hy⟩ := h.1.idle_quiet (h.1.busy_iff.mp hb)
  exact h.machinesIdle hr hs hy

/-- The part of the state that `MachinesIdle` speaks of. -/
def innerPart (s : State) : Bool × Sequencer × List Event :=
  (s.flags.outLow, { s.seq with opr := 0, cs := .idle }, s.obs.log)

theorem MachinesIdle.of_inner {s t : State} (h : MachinesIdle s) (ht : innerPart t = innerPart s) :
    MachinesIdle t := by
  simp only [innerPart, Prod.mk.injEq, Sequencer.mk.injEq, true_and] at ht
  obtain ⟨hl, ⟨hr, hb, hy, hn, hp, hd, hs⟩, ht⟩ := ht
  exact ⟨⟨hl ▸ h.line, hb ▸ h.bs, hy ▸ h.byt, hn ▸ h.bitcnt, hs ▸ h.slotBit, ht ▸ h.trace⟩, hr ▸ h.rp, hp ▸ h.poll,
    hd ▸ h.dly⟩

/-! ### The sub-sequences leave no inner machine at work -/

section
variable {s : State} (h : MachinesIdle s)
include h

theorem MachinesIdle.after_release : MachinesIdle (release s) :=
  { h with line := rfl, trace := quiet_release _ h.trace }

theorem MachinesIdle.after_resetSeq : MachinesIdle (resetSeq s) := by
  rw [resetSeq_eq]
  exact { h with line := rfl, rp := rfl, dly := rfl, trace := quiet_resetTrace _ h.trace }

theorem MachinesIdle.after_presenceSeq : MachinesIdle (presenceSeq s) := by
  rw [presenceSeq_eq]
  exact { h with
    rp := rfl
    poll := rfl
    dly := by simp [h.dly]
    trace := quiet_pollOutcome _ _ _ h.trace }

theorem MachinesIdle.after_writeByteSeq (v : Byte) : MachinesIdle (writeByteSeq v s) := by
  rw [writeByteSeq_eq]
  exact { h with
    line := rfl
    bs := rfl
    byt := rfl
    bitcnt := Nat.le_refl 8
    dly := rfl
    trace := quiet_writeByteTrace _ _ h.trace }

theorem MachinesIdle.after_readByteSeq : MachinesIdle (readByteSeq s) := by
  rw [readByteSeq_eq]
  exact { h with
    line := rfl
    bs := rfl
    byt := rfl
    bitcnt := Nat.le_refl 8
    dly := rfl
    trace := quiet_readByteTrace _ _ _ h.trace }

theorem MachinesIdle.after_readBitSeq : MachinesIdle (readBitSeq s) := by
  rw [readBitSeq, readSlot_state]
  exact { h with
    line := rfl
    bs := rfl
    dly := rfl
    trace := quiet_readSlotTrace _ _ h.trace }

theorem MachinesIdle.after_shregToRdata : MachinesIdle (shregToRdata s) := h.of_inner rfl
theorem MachinesIdle.after_shregToLo : MachinesIdle (shregToLo s) := h.of_inner rfl
theorem MachinesIdle.after_shregToHi : MachinesIdle (shregToHi s) := h.of_inner rfl
theorem MachinesIdle.after_decodeTemp : MachinesIdle (decodeTemp s) := h.of_inner rfl

theorem MachinesIdle.after_primitiveSeq : MachinesIdle (primitiveSeq s) := by
  unfold primitiveSeq
  split
  · exact h.after_resetSeq
  · exact h.after_presenceSeq
  · exact h.after_readBitSeq
  · exact h.after_readByteSeq.after_shregToRdata
  · exact h.after_writeByteSeq _
  · exact h

theorem MachinesIdle.after_phaseSeq : MachinesIdle (phaseSeq s) := by
  unfold phaseSeq
  split
  · exact h
  · exact h.after_resetSeq.after_presenceSeq
  · exact h.after_resetSeq.after_presenceSeq
  · exact h.after_writeByteSeq _
  · exact h.after_writeByteSeq _
  · exact h.after_writeByteSeq _
  · exact h.after_writeByteSeq _
  · exact h.after_readByteSeq.after_shregToLo
  · exact h.after_readByteSeq.after_shregToHi
  · exact h.after_decodeTemp
  · exact h.after_primitiveSeq
  · exact h.after_release.after_resetSeq.after_presenceSeq

end

end Sys2Proof
end

section
/-! PROOFS. Every step keeps a state legal. -/

namespace Sys2Proof

open Sys2Proof.Machine

/-! ### CS goes on -/

/-- The state of CS that follows is on the operation's path. -/
theorem pathLegal_followingPhase {q : Sequencer} (h : pathLegal q) (hl : ¬lastPhase q) (hc : q.cs ≠ .idle) :
    pathLegal { q with cs := followingPhase q.cs } := by
  cases hq : q.cs <;> simp_all [pathLegal, lastPhase, followingPhase]

/-- A state of CS that ends with no inner machine at work leads to a legal state. -/
theorem MachinesIdle.advance_legal {s : State} (h : MachinesIdle s) (hb : s.flags.busy = true) (hc : s.seq.cs ≠ .idle)
    (hp : pathLegal s.seq) : Legal (advance s) ∧ MachinesIdle (advance s) := by
  by_cases hl : lastPhase s.seq
  · rw [advance_of_last hl]
    have hi : MachinesIdle (complete s) := h.of_inner rfl
    exact ⟨hi.legal (by simp) trivial, hi⟩
  · obtain ⟨ha, hn⟩ := advance_of_not_last hl hc
    rw [ha]
    have hi : MachinesIdle (setCs (followingPhase s.seq.cs) s) := h.of_inner rfl
    exact ⟨hi.legal (by simp [hb, hn]) (pathLegal_followingPhase hp hl hc), hi⟩

theorem Legal.cs_ne_idle {s : State} (h : Legal s) (hb : s.flags.busy = true) : s.seq.cs ≠ .idle := fun hc => by
  simp [h.1.busy_iff.mpr hc] at hb

/-! ### One state of CS -/

/-- A sub-sequence writes neither BUSY nor CS nor OPR. -/
theorem phaseSeq_control (s : State) : (phaseSeq s).flags.busy = s.flags.busy ∧ (phaseSeq s).seq.cs = s.seq.cs ∧
    (phaseSeq s).seq.opr = s.seq.opr := by
  have prim : (primitiveSeq s).flags.busy = s.flags.busy ∧ (primitiveSeq s).seq.cs = s.seq.cs ∧
      (primitiveSeq s).seq.opr = s.seq.opr := by
    unfold primitiveSeq
    split <;> simp [resetSeq_eq, presenceSeq_eq, readBitSeq, readSlot_state, readByteSeq_eq]
  unfold phaseSeq
  split <;> simp [resetSeq_eq, presenceSeq_eq, readByteSeq_eq, prim]

theorem pathLegal_congr {q q' : Sequencer} (hc : q'.cs = q.cs) (ho : q'.opr = q.opr) (h : pathLegal q) :
    pathLegal q' := by
  simpa [pathLegal, hc, ho] using h

/-- A phase step from the start of a state of CS leads to the start of the next one. -/
theorem Legal.after_phaseStep {s : State} (h : Legal s) (hb : s.flags.busy = true) (ha : atPhaseStart s = true) :
    Legal (phaseStep s) ∧ MachinesIdle (phaseStep s) := by
  obtain ⟨hbusy, hcs, hopr⟩ := phaseSeq_control s
  rw [phaseStep, if_neg (h.cs_ne_idle hb)]
  exact (h.machinesIdle_of_start ha).after_phaseSeq.advance_legal (hbusy.trans hb) (hcs ▸ h.cs_ne_idle hb)
    (pathLegal_congr hcs hopr h.1.path)

/-! ### Within a state of CS -/

/-- What a legal state demands of OUT_LOW, the inner machines and the trace. -/
structure InnerLegal (s : State) : Prop where
  line : s.flags.outLow = true ↔ drivesLow s.seq
  rp : rpLegal s.seq
  byt : bytLegal s.seq
  bs : bsLegal s.seq
  dly : s.seq.dly.toNat ≤ delayLength s.seq
  trace : TraceFits s

theorem Legal.inner {s : State} (h : Legal s) : InnerLegal s := ⟨h.1.line, h.1.rp, h.1.byt, h.1.bs, h.1.dly, h.2⟩

/-- A step inside a state of CS has only to keep what concerns the inner machines. -/
theorem Legal.within {s m : State} (h : Legal s) (hb : s.flags.busy = true) (hm : m.outer = s.outer)
    (hi : InnerLegal m) : Legal m := by
  have hcs : m.seq.cs = s.seq.cs := congrArg Outer.cs hm
  have hopr : m.seq.opr = s.seq.opr := congrArg Outer.opr hm
  have hbusy : m.flags.busy = s.flags.busy := congrArg Outer.busy hm
  have hne := h.cs_ne_idle hb
  refine ⟨⟨?_, ?_, hi.line, pathLegal_congr hcs hopr h.1.path, hi.rp, hi.byt, hi.bs, hi.dly⟩, hi.trace⟩
  · rw [hcs, hbusy]; exact h.1.busy_iff
  · exact fun hc => absurd (hcs ▸ hc) hne

/-- A write slot runs inside a byte write. -/
theorem InnerLegal.of_writeSlot {s : State} (h : InnerLegal s)
    (hb : s.seq.bs = .w1Low ∨ s.seq.bs = .w1Rec ∨ s.seq.bs = .w0Low ∨ s.seq.bs = .w0Rec) :
    s.seq.byt = .wr ∧ s.seq.slotBit = none ∧ s.seq.rp = .idle := by
  have hbs := h.bs
  have hby := h.byt
  obtain hb | hb | hb | hb := hb <;> simp only [bsLegal, hb] at hbs <;> simp only [bytLegal, hbs.1] at hby <;>
    exact ⟨hbs.1, hbs.2, hby.2.1⟩

/-- A read slot runs inside a byte read or as ReadBit. -/
theorem InnerLegal.of_readSlot {s : State} (h : InnerLegal s)
    (hb : s.seq.bs = .rLow ∨ s.seq.bs = .rWait ∨ s.seq.bs = .rPad) : readSlotLegal s.seq := by
  have hbs := h.bs
  obtain hb | hb | hb := hb <;> simp only [bsLegal, hb] at hbs <;> exact hbs.1

/-- A byte is transferred while RP is idle, and not yet over. -/
theorem InnerLegal.of_byte {s : State} (h : InnerLegal s) (hy : s.seq.byt ≠ .idle) :
    s.seq.rp = .idle ∧ s.seq.bitcnt.toNat < 8 := by
  have hby := h.byt
  cases hs : s.seq.byt <;> simp_all [bytLegal]

theorem InnerLegal.released {s : State} (h : InnerLegal s) (hl : ¬drivesLow s.seq) :
    Resting s.obs.log ∧ s.flags.outLow = false := by
  have ho : s.flags.outLow = false := by simpa [hl] using h.line
  exact ⟨⟨h.trace.1, h.trace.2.trans ho⟩, ho⟩

/-! ### The slots, micro-operation by micro-operation -/

section
variable {s : State} (h : InnerLegal s)
include h

/-- The low pulse of a write slot is over. -/
theorem InnerLegal.writeRecovery (hb : s.seq.bs = .w1Low ∨ s.seq.bs = .w0Low) :
    InnerLegal (s |> setBs .w1Rec |> release |> loadDelay Config.tW1h) ∧
    InnerLegal (s |> setBs .w0Rec |> release |> loadDelay Config.tW0h) := by
  obtain ⟨hy, hs, hr⟩ := h.of_writeSlot (by tauto)
  constructor
  · exact ⟨by simp [drivesLow, hr], h.rp, h.byt, ⟨hy, hs⟩, by simp [delayLength], h.trace.1, rfl⟩
  · exact ⟨by simp [drivesLow, hr], h.rp, h.byt, ⟨hy, hs⟩, by simp [delayLength], h.trace.1, rfl⟩

/-- The low pulse of a read slot is over. -/
theorem InnerLegal.readWait (hb : s.seq.bs = .rLow) :
    InnerLegal (s |> setBs .rWait |> release |> loadDelay Config.tRds) := by
  have hs : s.seq.slotBit = none := by
    have hbs := h.bs
    simp only [bsLegal, hb] at hbs
    exact hbs.2
  have hr := h.of_readSlot (.inl hb)
  exact ⟨by simp [drivesLow, hr.1], h.rp, h.byt, ⟨hr, hs⟩, by simp [delayLength], h.trace.1, rfl⟩

/-- The sample of a read slot. -/
theorem InnerLegal.readSample (hb : s.seq.bs = .rWait) :
    InnerLegal (s |> sampled |> setSlotBit (some (lineLevel s)) |> setBs .rPad |> loadDelay Config.tRdpad) := by
  have hr := h.of_readSlot (.inr (.inl hb))
  obtain ⟨⟨hl, hd⟩, ho⟩ := h.released (by simp [drivesLow, hb, hr.1])
  exact ⟨by simp [drivesLow, hr.1, ho], h.rp, h.byt, ⟨hr, Option.some_ne_none _⟩, by simp [delayLength],
    by simp [traceLegal, hl, hd], by simp [drivenAfter, hd, ho]⟩

/-- A write slot begins. -/
theorem InnerLegal.after_startWriteSlot (hb : s.seq.bs = .idle) (hy : s.seq.byt = .wr) :
    InnerLegal (startWriteSlot s) := by
  have hr := (h.of_byte (by simp [hy])).1
  have hs : s.seq.slotBit = none := by simpa [bsLegal, hb] using h.bs
  obtain ⟨⟨hl, hd⟩, -⟩ := h.released (by simp [drivesLow, hb, hr])
  unfold startWriteSlot
  split
  · exact ⟨by simp [drivesLow], h.rp, h.byt, ⟨hy, hs⟩, by simp [delayLength], by simp [traceLegal, hl, hd], rfl⟩
  · exact ⟨by simp [drivesLow], h.rp, h.byt, ⟨hy, hs⟩, by simp [delayLength], by simp [traceLegal, hl, hd], rfl⟩

/-- A read slot begins. -/
theorem InnerLegal.after_startReadSlot (hb : s.seq.bs = .idle) (hr : readSlotLegal s.seq) :
    InnerLegal (startReadSlot s) := by
  have hs : s.seq.slotBit = none := by simpa [bsLegal, hb] using h.bs
  obtain ⟨⟨hl, hd⟩, -⟩ := h.released (by simp [drivesLow, hb, hr.1])
  unfold startReadSlot
  exact ⟨by simp [drivesLow], h.rp, h.byt, ⟨hr, hs⟩, by simp [delayLength], by simp [traceLegal, hl, hd], rfl⟩

end

/-- What a byte that is over does with SHREG writes data registers only. -/
def WritesDataOnly (f : State → State) : Prop := ∀ s, (f s).seq = s.seq ∧ (f s).flags = s.flags ∧ (f s).obs = s.obs

theorem writesDataOnly_id : WritesDataOnly id := fun _ => ⟨rfl, rfl, rfl⟩

theorem writesDataOnly_storeByte : WritesDataOnly storeByte := fun s => by
  unfold storeByte
  split <;> exact ⟨rfl, rfl, rfl⟩

/-- A slot of a byte is over, its bit no longer held: the next slot follows, or CS goes on. -/
theorem Legal.after_slotCounted {s u : State} (h : Legal s) (hb : s.flags.busy = true) (hu : u.outer = s.outer)
    (hi : u.seq.rp = .idle ∧ u.seq.poll = 0 ∧ u.seq.slotBit = none ∧ u.seq.dly = 0 ∧ u.flags.outLow = false ∧
      Resting u.obs.log) (hy : u.seq.byt ≠ .idle) (hbyt : bytLegal u.seq) {f : State → State} (hf : WritesDataOnly f) :
    Legal (slotCounted f u) := by
  obtain ⟨hr, hp, hs, hd, ho, ht⟩ := hi
  have hcs : u.seq.cs = s.seq.cs := congrArg Outer.cs hu
  unfold slotCounted boundSlots
  split
  · next h8 =>
    obtain ⟨hq, hg, hl⟩ := hf (u |> setBs .idle |> countBit |> setByt .idle)
    refine (MachinesIdle.advance_legal ⟨⟨?_, ?_, ?_, ?_, ?_, ?_⟩, ?_, ?_, ?_⟩ ?_ ?_ ?_).1 <;>
      simp only [hq, hg, hl]
    · exact ho
    · simp
    · simp
    · exact (congrArg BitVec.toNat h8).le
    · exact hs
    · exact ht
    · exact hr
    · exact hp
    · exact hd
    · exact (congrArg Outer.busy hu).trans hb
    · exact hcs ▸ h.cs_ne_idle hb
    · exact pathLegal_congr hcs (congrArg Outer.opr hu) h.1.path
  · next h8 =>
    have hn : (u.seq.bitcnt + 1).toNat < 8 := by
      have h8' : u.seq.bitcnt + 1 ≠ 8 := h8
      have hlt : u.seq.bitcnt.toNat < 8 := by cases hyt : u.seq.byt <;> simp_all [bytLegal]
      bv_omega
    refine h.within hb hu ⟨?_, ?_, ?_, hs, ?_, ht.1, ?_⟩
    · simp [drivesLow, hr, ho]
    · simpa [rpLegal, hr] using hp
    · cases hyt : u.seq.byt <;> simp_all [bytLegal]
    · simp [hd]
    · exact ht.2.trans ho.symm

/-- The recovery of a write slot is over. -/
theorem Legal.after_writeSlotEnded {s : State} (h : Legal s) (hb : s.flags.busy = true) (hd : s.seq.dly = 0)
    (hp : s.seq.bs = .w1Rec ∨ s.seq.bs = .w0Rec) : Legal (slotCounted id s) := by
  obtain ⟨hy, hs, hr⟩ := h.inner.of_writeSlot (by tauto)
  obtain ⟨ht, ho⟩ := h.inner.released (by obtain hp | hp := hp <;> simp [drivesLow, hp, hr])
  have hpoll : s.seq.poll = 0 := by simpa [rpLegal, hr] using h.1.rp
  exact h.after_slotCounted hb rfl ⟨hr, hpoll, hs, hd, ho, ht⟩ (by simp [hy]) h.1.byt writesDataOnly_id

/-- The pad of a read slot is over. -/
theorem Legal.after_readSlotEnded {s : State} (h : Legal s) (hb : s.flags.busy = true) (hd : s.seq.dly = 0)
    (hp : s.seq.bs = .rPad) : Legal (readSlotEnded s) := by
  obtain ⟨hr, hby⟩ := h.inner.of_readSlot (.inr (.inr hp))
  obtain ⟨ht, ho⟩ := h.inner.released (by simp [drivesLow, hp, hr])
  have hpoll : s.seq.poll = 0 := by simpa [rpLegal, hr] using h.1.rp
  unfold readSlotEnded
  obtain hy | ⟨hy, hc, -⟩ := hby <;> simp only [hy]
  · exact h.after_slotCounted
      (u := s |> setSlotBit none |> setShreg (shiftIn (s.seq.slotBit.getD false) s.regs.shreg)) hb rfl
      ⟨hr, hpoll, rfl, hd, ho, ht⟩ (by simp [hy]) h.1.byt writesDataOnly_storeByte
  · have hn : s.seq.bitcnt.toNat ≤ 8 := by simpa [bytLegal, hy] using h.1.byt
    have hi : MachinesIdle (s |> setSlotBit none |> setBs .idle |> setRdata (zextBit (s.seq.slotBit.getD false))) :=
      ⟨⟨ho, rfl, hy, hn, rfl, ht⟩, hr, hpoll, hd⟩
    exact (hi.advance_legal hb (h.cs_ne_idle hb) h.1.path).1

/-! ### The reset pulse and the poll, micro-operation by micro-operation -/

/-- While RP is at work, BY is idle. -/
theorem InnerLegal.byt_idle {s : State} (h : InnerLegal s) (hr : s.seq.rp ≠ .idle) : s.seq.byt = .idle := by
  by_contra hy
  exact hr (h.of_byte hy).1

/-- While RP is at work and does not drive the line, nothing else is at work. -/
theorem InnerLegal.slotsIdle {s : State} (h : InnerLegal s) (hs : s.seq.bs = .idle) (hr : s.seq.rp ≠ .idle)
    (hl : s.seq.rp ≠ .rstLow) : SlotsIdle s := by
  have hy := h.byt_idle hr
  obtain ⟨ht, ho⟩ := h.released (by simp [drivesLow, hs, hl])
  exact ⟨ho, hs, hy, by simpa [bytLegal, hy] using h.byt, by simpa [bsLegal, hs] using h.bs, ht⟩

section
variable {s : State} (h : Legal s) (hb : s.flags.busy = true)
include h hb

/-- The reset pulse begins. -/
theorem Legal.after_startPulse (hi : MachinesIdle s)
    (hc : pulsesAndPolls s.seq ∨ (s.seq.cs = .prim ∧ s.seq.opr = 1)) : Legal (startPulse s) := by
  refine h.within hb rfl ⟨?_, ⟨hc, hi.poll⟩, ?_, ?_, ?_, ?_, rfl⟩ <;> unfold startPulse
  · simp [drivesLow]
  · simpa [bytLegal, hi.byt] using hi.bitcnt
  · simpa [bsLegal, hi.bs] using hi.slotBit
  · simp [delayLength, hi.bs]
  · simp [traceLegal, hi.trace.1, hi.trace.2]

/-- The pulse's low time is over. -/
theorem Legal.after_pulse (hs : s.seq.bs = .idle) (hr : s.seq.rp = .rstLow) :
    Legal (s |> setRp .rstRec |> release |> loadDelay Config.tRstrec) := by
  have hy := h.inner.byt_idle (by simp [hr])
  have hrp : (pulsesAndPolls s.seq ∨ (s.seq.cs = .prim ∧ s.seq.opr = 1)) ∧ s.seq.poll = 0 := by
    simpa only [rpLegal, hr] using h.1.rp
  refine h.within hb rfl ⟨?_, hrp, ?_, ?_, ?_, h.2.1, rfl⟩
  · simp [drivesLow, hs]
  · simpa [bytLegal, hy] using h.1.byt
  · simpa [bsLegal, hs] using h.1.bs
  · simp [delayLength, hs]

/-- A poll phase below its bound, sampling or delaying. -/
theorem Legal.of_polling {u : State} (hu : u.outer = s.outer) (hc : pollingPhase s.seq) (hi : SlotsIdle u)
    (hp : (u.seq.rp = .prA ∧ u.seq.poll.toNat < 200) ∨ (u.seq.rp = .prB ∧ u.seq.poll.toNat < 240))
    (hd : u.seq.dly.toNat ≤ 1) : Legal u := by
  have hcu : pollingPhase u.seq := by
    have hcs : u.seq.cs = s.seq.cs := congrArg Outer.cs hu
    have hopr : u.seq.opr = s.seq.opr := congrArg Outer.opr hu
    simpa [pollingPhase, pulsesAndPolls, hcs, hopr] using hc
  refine h.within hb hu ⟨?_, ?_, ?_, ?_, ?_, hi.trace.1, hi.trace.2.trans hi.line.symm⟩
  · obtain ⟨hr, -⟩ | ⟨hr, -⟩ := hp <;> simp [drivesLow, hi.line, hi.bs, hr]
  · obtain ⟨hr, hn⟩ | ⟨hr, hn⟩ := hp <;> simp only [rpLegal, hr] <;> exact ⟨hcu, hn⟩
  · simpa [bytLegal, hi.byt] using hi.bitcnt
  · simpa [bsLegal, hi.bs] using hi.slotBit
  · obtain ⟨hr, -⟩ | ⟨hr, -⟩ := hp <;> simpa [delayLength, hi.bs, hr] using hd

/-- The poll ends, and with it CS's state. -/
theorem Legal.of_pollEnded {u : State} (hu : u.outer = s.outer) (hi : SlotsIdle u) (hd : u.seq.dly = 0) (b : Bool) :
    Legal (advance (endPoll b u)) := by
  have hcs : u.seq.cs = s.seq.cs := congrArg Outer.cs hu
  have hopr : u.seq.opr = s.seq.opr := congrArg Outer.opr hu
  have he : MachinesIdle (endPoll b u) := ⟨⟨hi.line, hi.bs, hi.byt, hi.bitcnt, hi.slotBit, hi.trace⟩, rfl, rfl, hd⟩
  exact (he.advance_legal ((congrArg Outer.busy hu).trans hb) (hcs ▸ h.cs_ne_idle hb)
    (pathLegal_congr hcs hopr h.1.path)).1

omit hb in
/-- RP polls in a state of CS that runs a poll, and below the phase's bound. -/
theorem Legal.poll_below {bound : Nat} (hp : (s.seq.rp = .prA ∧ bound = 200) ∨ (s.seq.rp = .prB ∧ bound = 240)) :
    pollingPhase s.seq ∧ s.seq.poll.toNat < bound := by
  have hrp := h.1.rp
  obtain ⟨hr, rfl⟩ | ⟨hr, rfl⟩ := hp <;> simpa only [rpLegal, hr] using hrp

/-- The recovery after the pulse is over. -/
theorem Legal.after_pulseEnded (hd : s.seq.dly = 0) (hs : s.seq.bs = .idle) (hr : s.seq.rp = .rstRec) :
    Legal (pulseEnded s) := by
  have hi := h.inner.slotsIdle hs (by simp [hr]) (by simp [hr])
  have hrp : (pulsesAndPolls s.seq ∨ (s.seq.cs = .prim ∧ s.seq.opr = 1)) ∧ s.seq.poll = 0 := by
    simpa only [rpLegal, hr] using h.1.rp
  unfold pulseEnded
  split
  · have hm : MachinesIdle (setRp .idle s) :=
      ⟨⟨hi.line, hi.bs, hi.byt, hi.bitcnt, hi.slotBit, hi.trace⟩, rfl, hrp.2, hd⟩
    exact (hm.advance_legal hb (h.cs_ne_idle hb) h.1.path).1
  · next ho =>
    refine h.of_polling hb rfl (.inl (hrp.1.resolve_right fun hp => ho hp.2))
      ⟨hi.line, hi.bs, hi.byt, hi.bitcnt, hi.slotBit, hi.trace⟩ (.inl ⟨rfl, by simp [enterPhaseA]⟩)
      (by simp [enterPhaseA, hd])

/-- A poll of phase A. -/
theorem Legal.after_pollA (hd : s.seq.dly = 0) (hs : s.seq.bs = .idle) (hr : s.seq.rp = .prA) : Legal (pollA s) := by
  have hi := h.inner.slotsIdle hs (by simp [hr]) (by simp [hr])
  obtain ⟨hc, hn⟩ := h.poll_below (.inl ⟨hr, rfl⟩)
  have ht := quiet_sample (s.env.answer 0) _ hi.trace
  unfold pollA
  split
  · exact h.of_polling hb rfl hc ⟨hi.line, hi.bs, hi.byt, hi.bitcnt, hi.slotBit, ht⟩ (.inl ⟨hr, hn⟩) (by simp)
  · exact h.of_polling hb rfl hc ⟨hi.line, hi.bs, hi.byt, hi.bitcnt, hi.slotBit, ht⟩
      (.inr ⟨rfl, by simp [enterPhaseB]⟩) (by simp [enterPhaseB, hd])

/-- A poll of phase B. -/
theorem Legal.after_pollB (hd : s.seq.dly = 0) (hs : s.seq.bs = .idle) (hr : s.seq.rp = .prB) : Legal (pollB s) := by
  have hi := h.inner.slotsIdle hs (by simp [hr]) (by simp [hr])
  obtain ⟨hc, hn⟩ := h.poll_below (.inr ⟨hr, rfl⟩)
  have hi' : SlotsIdle (sampled s) :=
    ⟨hi.line, hi.bs, hi.byt, hi.bitcnt, hi.slotBit, quiet_sample (s.env.answer 0) _ hi.trace⟩
  unfold pollB
  split
  · exact h.of_pollEnded hb (u := sampled s) rfl hi' hd false
  · exact h.of_polling hb rfl hc ⟨hi'.line, hi'.bs, hi'.byt, hi'.bitcnt, hi'.slotBit, hi'.trace⟩
      (.inr ⟨hr, hn⟩) (by simp)

/-! ### A tick -/

/-- The bound of a poll phase is checked after the poll is counted (R132). -/
theorem Legal.after_boundPolls {u : State} (hu : u.outer = s.outer) (hc : pollingPhase s.seq) (hi : SlotsIdle u)
    (hd : u.seq.dly = 0) {bound : Nat}
    (hp : (u.seq.rp = .prA ∧ bound = 200) ∨ (u.seq.rp = .prB ∧ bound = 240)) (hn : u.seq.poll.toNat ≤ bound) :
    Legal (boundPolls bound u) := by
  unfold boundPolls
  split
  · exact h.of_pollEnded hb hu hi hd true
  · next hne =>
    exact h.of_polling hb hu hc hi (hp.imp (fun h => ⟨h.1, by omega⟩) fun h => ⟨h.1, by omega⟩) (by simp [hd])

omit hb in
/-- A running delay belongs to a state that lasts (10_state.md R33, R34). -/
theorem Legal.delayLength_ne_zero (hd : s.seq.dly ≠ 0) : delayLength s.seq ≠ 0 := fun h0 => by
  have := h.1.dly
  exact hd (BitVec.eq_of_toNat_eq (by simpa [h0] using this))

end

/-- An event `D` of a delay that is not 0 leaves a trace as it was. -/
theorem quiet_delay {n : Nat} (hn : n ≠ 0) : Quiet [.D n] := fun _ ⟨hl, hd⟩ => by
  simp [Resting, traceLegal, drivenAfter, hl, hd, hn]

/-- One microsecond of a running delay. -/
theorem Legal.after_tick {s : State} (h : Legal s) (hb : s.flags.busy = true) (hd : s.seq.dly ≠ 0) :
    Legal (tick s) := by
  have hlen := h.delayLength_ne_zero hd
  have hle := h.1.dly
  unfold tick
  split
  · next h0 =>
    have poll : ∀ {bound : Nat}, s.seq.bs = .idle →
        ((s.seq.rp = .prA ∧ bound = 200) ∨ (s.seq.rp = .prB ∧ bound = 240)) →
        Legal (boundPolls bound (countPoll (record (.D (delayLength s.seq)) (countDown s)))) := by
      intro bound hs hp
      have hr : s.seq.rp ≠ .idle ∧ s.seq.rp ≠ .rstLow := by obtain ⟨hr, -⟩ | ⟨hr, -⟩ := hp <;> simp [hr]
      have hi := h.inner.slotsIdle hs hr.1 hr.2
      obtain ⟨hc, hn⟩ := h.poll_below hp
      have hn' : (s.seq.poll + 1).toNat ≤ bound := by
        rw [BitVec.toNat_add]
        exact (Nat.mod_le _ _).trans hn
      exact h.after_boundPolls hb (u := countPoll (record _ (countDown s))) rfl hc
        ⟨hi.line, hi.bs, hi.byt, hi.bitcnt, hi.slotBit, quiet_delay hlen _ hi.trace⟩ h0 hp hn'
    unfold delayEnded
    split
    · next hs hr => exact poll hs (.inl ⟨hr, rfl⟩)
    · next hs hr => exact poll hs (.inr ⟨hr, rfl⟩)
    · refine h.within hb rfl ⟨h.1.line, h.1.rp, h.1.byt, h.1.bs, ?_, ?_, h.2.2⟩
      · exact (congrArg BitVec.toNat h0).le.trans (Nat.zero_le _)
      · have hne : delayLength (countDown s).seq ≠ 0 := hlen
        show (delayLength (countDown s).seq != 0 && traceLegal s.obs.log) = true
        simp [hne, h.2.1]
  · refine h.within hb rfl ⟨h.1.line, h.1.rp, h.1.byt, h.1.bs, ?_, h.2⟩
    have hsub : (s.seq.dly - 1).toNat ≤ s.seq.dly.toNat := by bv_omega
    exact hsub.trans hle

/-! ### A state of CS begins -/

section
variable {s : State} (h : Legal s) (hb : s.flags.busy = true) (hi : MachinesIdle s)
include h hb hi

theorem Legal.after_startWriteByte (v : Byte)
    (hc : s.seq.cs = .skip1 ∨ s.seq.cs = .conv ∨ s.seq.cs = .skip2 ∨ s.seq.cs = .rdsp ∨
      (s.seq.cs = .prim ∧ s.seq.opr = 5)) : Legal (startWriteByte v s) :=
  h.within hb rfl ⟨h.1.line, h.1.rp, ⟨by simp [startWriteByte], hi.rp, hc⟩,
    by simpa [startWriteByte, bsLegal, hi.bs] using hi.slotBit, h.1.dly, h.2⟩

theorem Legal.after_startReadByte
    (hc : s.seq.cs = .rdlo ∨ s.seq.cs = .rdhi ∨ (s.seq.cs = .prim ∧ s.seq.opr = 4)) : Legal (startReadByte s) :=
  h.within hb rfl ⟨h.1.line, h.1.rp, ⟨by simp [startReadByte], hi.rp, hc⟩,
    by simpa [startReadByte, bsLegal, hi.bs] using hi.slotBit, h.1.dly, h.2⟩

theorem Legal.after_startPrimitive (hc : s.seq.cs = .prim) : Legal (startPrimitive s) := by
  unfold startPrimitive
  split
  · next ho => exact h.after_startPulse hb hi (.inr ⟨hc, opr_eq_of_toNat ho⟩)
  · next ho =>
    exact h.of_polling hb rfl (.inr ⟨hc, opr_eq_of_toNat ho⟩) ⟨hi.line, hi.bs, hi.byt, hi.bitcnt, hi.slotBit, hi.trace⟩
      (.inl ⟨rfl, by simp [enterPhaseA]⟩) (by simp [enterPhaseA, hi.dly])
  · next ho =>
    exact h.within hb rfl (h.inner.after_startReadSlot hi.bs ⟨hi.rp, .inr ⟨hi.byt, hc, opr_eq_of_toNat ho⟩⟩)
  · next ho => exact h.after_startReadByte hb hi (.inr (.inr ⟨hc, opr_eq_of_toNat ho⟩))
  · next ho => exact h.after_startWriteByte hb hi _ (.inr (.inr (.inr (.inr ⟨hc, opr_eq_of_toNat ho⟩))))
  · exact (hi.advance_legal hb (h.cs_ne_idle hb) h.1.path).1

theorem Legal.after_startPhase : Legal (startPhase s) := by
  have hne := h.cs_ne_idle hb
  unfold startPhase
  split
  · next hc => exact absurd hc hne
  · next hc => exact h.after_startPulse hb hi (.inl (.inl hc))
  · next hc => exact h.after_startPulse hb hi (.inl (.inr (.inl hc)))
  · next hc => exact h.after_startWriteByte hb hi _ (.inl hc)
  · next hc => exact h.after_startWriteByte hb hi _ (.inr (.inr (.inl hc)))
  · next hc => exact h.after_startWriteByte hb hi _ (.inr (.inl hc))
  · next hc => exact h.after_startWriteByte hb hi _ (.inr (.inr (.inr (.inl hc))))
  · next hc => exact h.after_startReadByte hb hi (.inl hc)
  · next hc => exact h.after_startReadByte hb hi (.inr (.inl hc))
  · exact (hi.after_decodeTemp.advance_legal hb hne h.1.path).1
  · next hc => exact h.after_startPrimitive hb hi hc
  · next hc =>
    have hz : Legal (release s) := hi.after_release.legal h.1.busy_iff h.1.path
    exact hz.after_startPulse hb hi.after_release (.inl (.inr (.inr hc)))

end

/-- A micro-operation step of a busy engine. -/
theorem Legal.after_microStep {s : State} (h : Legal s) (hb : s.flags.busy = true) : Legal (microStep s) := by
  by_cases hd : s.seq.dly = 0
  case neg => rw [microStep, if_pos hd]; exact h.after_tick hb hd
  simp only [microStep, hd, ne_eq, not_true_eq_false, if_false]
  have hi := h.inner
  cases hs : s.seq.bs with
  | w1Low => exact h.within hb rfl (hi.writeRecovery (.inl hs)).1
  | w0Low => exact h.within hb rfl (hi.writeRecovery (.inr hs)).2
  | w1Rec => exact h.after_writeSlotEnded hb hd (.inl hs)
  | w0Rec => exact h.after_writeSlotEnded hb hd (.inr hs)
  | rLow => exact h.within hb rfl (hi.readWait hs)
  | rWait => exact h.within hb rfl (hi.readSample hs)
  | rPad => exact h.after_readSlotEnded hb hd hs
  | idle =>
    cases hy : s.seq.byt with
    | wr => exact h.within hb (startWriteSlot_outer s) (hi.after_startWriteSlot hs hy)
    | rd => exact h.within hb rfl (hi.after_startReadSlot hs ⟨(hi.of_byte (by simp [hy])).1, .inl hy⟩)
    | idle =>
      cases hr : s.seq.rp with
      | rstLow => exact h.after_pulse hb hs hr
      | rstRec => exact h.after_pulseEnded hb hd hs hr
      | prA => exact h.after_pollA hb hd hs hr
      | prB => exact h.after_pollB hb hd hs hr
      | idle => exact h.after_startPhase hb (h.machinesIdle hr hs hy)

/-! ### A whole step -/

theorem hardwareReset_machinesIdle (s : State) : MachinesIdle (hardwareReset s) :=
  ⟨⟨rfl, rfl, rfl, Nat.zero_le _, rfl, rfl, rfl⟩, rfl, rfl, rfl⟩

theorem hardwareReset_legal (s : State) : Legal (hardwareReset s) :=
  (hardwareReset_machinesIdle s).legal (by simp [State.reset]) trivial

/-- The host's side of a step is no part of legality. -/
theorem Legal.after_beginStep {s : State} (h : Legal s) : Legal (beginStep s) :=
  ⟨⟨h.1.busy_iff, h.1.idle_quiet, h.1.line, h.1.path, h.1.rp, h.1.byt, h.1.bs, h.1.dly⟩, h.2⟩

theorem Legal.after_idleFor {s : State} (h : Legal s) (n : Nat) : Legal (idleFor n s) :=
  ⟨⟨h.1.busy_iff, h.1.idle_quiet, h.1.line, h.1.path, h.1.rp, h.1.byt, h.1.bs, h.1.dly⟩, h.2⟩

theorem csAfterAccept_path : ∀ op : OpCode, csAfterAccept op ≠ .idle ∧
    (csAfterAccept op = .init ∧ op = 0 ∨ csAfterAccept op = .prim ∧ 1 ≤ op.toNat ∧ op.toNat ≤ 5 ∨
      csAfterAccept op = .rp1 ∧ (op = 6 ∨ op = 7)) := by decide

/-- Acceptance by an idle engine. -/
theorem Legal.after_accept {s : State} (h : Legal s) (hb : s.flags.busy = false) (op : OpCode) (arg : Byte) :
    Legal (accept op arg s) ∧ MachinesIdle (accept op arg s) := by
  obtain ⟨hne, hp⟩ := csAfterAccept_path op
  have hi : MachinesIdle (accept op arg s) := (h.machinesIdle_of_idle hb).of_inner rfl
  refine ⟨hi.legal (by simp [hne]) ?_, hi⟩
  obtain ⟨hc, ho⟩ | ⟨hc, ho⟩ | ⟨hc, ho⟩ := hp <;> simpa [pathLegal, hc] using ho

/-- A run of states of CS from the start of one. -/
theorem Legal.after_phases {n : Nat} {s t : State} (hs : Legal s ∧ MachinesIdle s) (h : BusyRun phaseStep n s t) :
    Legal t ∧ MachinesIdle t :=
  h.keeps (P := fun s => Legal s ∧ MachinesIdle s) (fun _ hb hs => hs.1.after_phaseStep hb hs.2.start) hs

/-- Settles O12: every kind of step keeps a legal state legal. -/
theorem stepKeepsLegal : Obligations.StepKeepsLegal := by
  intro s t h hst
  have hl := h.after_beginStep
  obtain ⟨-, rfl⟩ | ⟨-, hb, -, -, he⟩ | ⟨-, hb, -, -, rfl⟩ | ⟨-, -, -, rfl⟩ | ⟨-, hb, -, ha, rfl⟩ |
    ⟨-, hb, -, rfl⟩ := step_cases hst
  · exact hardwareReset_legal _
  · obtain ⟨u, hu, hr⟩ := exec_eq_phases s.env.present.word (beginStep s)
    obtain rfl : u = t := by simpa [hu] using he
    exact (Legal.after_phases (hl.after_accept hb _ _) hr).1
  · exact (hl.after_accept hb _ _).1
  · exact hl.after_idleFor _
  · exact (hl.after_phaseStep hb ha).1
  · exact hl.after_microStep hb

end Sys2Proof
end

section
/-! PROOFS. What follows from the effect of a step: results, completions, and which step changes which register. -/

namespace Sys2Proof

open Sys2Proof.Machine

/-! ### What a step of a busy engine leaves unchanged -/

/-- What an effect tells of each register and flag, whichever step it is of. -/
structure StepFrame (polls reads : Prop) (s t : State) : Prop where
  rdata : t.regs.rdata = s.regs.rdata ∨ reads
  lo : t.regs.lo = s.regs.lo ∨ s.seq.cs = .rdlo
  hi : t.regs.hi = s.regs.hi ∨ s.seq.cs = .rdhi
  decoded : (t.regs.mag16 = s.regs.mag16 ∧ t.regs.temp = s.regs.temp ∧ t.flags.sign = s.flags.sign) ∨
    (s.seq.cs = .dec ∧ t.regs.mag16 = decodeMag16 s.regs.hi s.regs.lo ∧
      t.regs.temp = decodeTempWord s.regs.hi s.regs.lo ∧ t.flags.sign = decodeSign s.regs.hi)
  absent : t.flags.absent = s.flags.absent ∨ polls
  opr : t.seq.opr = s.seq.opr
  view : t.env.view = s.env.view
  host : t.env.host = s.env.host

theorem stepFrame_of_outer {p r : Prop} {s t : State} (h : t.outer = s.outer) : StepFrame p r s t := by
  obtain ⟨hrd, hlo, hhi, hmag, htemp, -, habs, hsign, hopr, -, hview, hhost, -⟩ := outer_eq_iff.mp h
  exact ⟨.inl hrd, .inl hlo, .inl hhi, .inl ⟨hmag, htemp, hsign⟩, .inl habs, hopr, hview, hhost⟩

theorem StepFrame.advance {p r : Prop} {s t : State} (h : StepFrame p r s t) : StepFrame p r s (advance t) := by
  constructor <;> simp [h.rdata, h.lo, h.hi, h.decoded, h.absent, h.opr, h.view, h.host]

/-- The frame of every effect. -/
theorem Machine.Effect.frame {p r : Prop} {s t : State} (h : Effect p r s t) : StepFrame p r s t := by
  cases h with
  | enter hc => exact ⟨.inl rfl, .inl rfl, .inl rfl, .inl ⟨rfl, rfl, rfl⟩, .inl rfl, rfl, rfl, rfl⟩
  | within _ h => exact stepFrame_of_outer h
  | ended m h _ => exact (stepFrame_of_outer h).advance
  | polled m b hp h =>
    have hm : StepFrame p r s m := stepFrame_of_outer h
    exact StepFrame.advance (t := setAbsent b m) { hm with absent := .inr hp }
  | read m v hr h =>
    have hm : StepFrame p r s m := stepFrame_of_outer h
    exact StepFrame.advance (t := setRdata v m) { hm with rdata := .inr hr }
  | low m v hc h =>
    have hm : StepFrame p r s m := stepFrame_of_outer h
    exact StepFrame.advance (t := setLo v m) { hm with lo := .inr hc }
  | high m v hc h =>
    have hm : StepFrame p r s m := stepFrame_of_outer h
    exact StepFrame.advance (t := setHi v m) { hm with hi := .inr hc }
  | decoded m hc h =>
    have hm : StepFrame p r s m := stepFrame_of_outer h
    obtain ⟨-, hlo, hhi, -⟩ := outer_eq_iff.mp h
    exact StepFrame.advance (t := decodeTemp m)
      { hm with decoded := .inr ⟨hc, by simp [hlo, hhi], by simp [hlo, hhi], by simp [hhi]⟩ }

/-! ### The effect in a legal state -/

theorem Legal.pollingPhase_of_polling {s : State} (h : Legal s) (hr : polling s.seq) : pollingPhase s.seq := by
  obtain hr | hr := hr
  · exact (h.poll_below (.inl ⟨hr, rfl⟩)).1
  · exact (h.poll_below (.inr ⟨hr, rfl⟩)).1

theorem Legal.readingPhase_of_resultSlot {s : State} (h : Legal s) (hr : resultSlotEnds s.seq) :
    readingPhase s.seq := by
  obtain ⟨-, hy | ⟨-, hc, ho⟩⟩ := h.inner.of_readSlot (.inr (.inr hr.1))
  · have hc := hr.2 hy
    have hby := h.1.byt
    simp only [bytLegal, hy, hc, reduceCtorEq, true_and, false_or] at hby
    exact ⟨hc, .inr hby.2.2⟩
  · exact ⟨hc, .inl ho⟩

/-- In a legal state polls and reads end only in the states of CS that run them. -/
theorem Legal.microStep_effect {s : State} (h : Legal s) :
    Effect (pollingPhase s.seq) (readingPhase s.seq) s (microStep s) :=
  (Machine.microStep_effect s).mono h.pollingPhase_of_polling h.readingPhase_of_resultSlot

/-- What acceptance, the host's waiting and every effect keep, a step from a legal state keeps. -/
theorem step_keeps {P : State → Prop} {s t : State} (hl : Legal s) (hst : step s = .next t)
    (hreset : s.env.present.rst = true → P (hardwareReset (beginStep s))) (hs : P (beginStep s))
    (hidle : ∀ n, P (idleFor n (beginStep s)))
    (haccept : ∀ op arg, s.flags.busy = false → P (accept op arg (beginStep s)))
    (hbusy : ∀ u v, Legal u → u.flags.busy = true → P u → Effect (pollingPhase u.seq) (readingPhase u.seq) u v → P v) :
    P t := by
  have hlb := hl.after_beginStep
  obtain ⟨hr, rfl⟩ | ⟨-, hb, -, -, he⟩ | ⟨-, hb, -, -, rfl⟩ | ⟨-, -, -, rfl⟩ | ⟨-, hb, -, ha, rfl⟩ |
    ⟨-, hb, -, rfl⟩ := step_cases hst
  · exact hreset hr
  · obtain ⟨u, hu, hrun⟩ := exec_eq_phases s.env.present.word (beginStep s)
    obtain rfl : u = t := by simpa [hu] using he
    have hkeeps := hrun.keeps (P := fun u => (Legal u ∧ MachinesIdle u) ∧ P u)
      fun u hub hu => ⟨hu.1.1.after_phaseStep hub hu.1.2.start, hbusy u _ hu.1.1 hub hu.2 (phaseStep_effect u)⟩
    exact (hkeeps ⟨hlb.after_accept hb _ _, haccept _ _ hb⟩).2
  · exact haccept _ _ hb
  · exact hidle _
  · exact hbusy _ _ hlb hb hs (phaseStep_effect _)
  · exact hbusy _ _ hlb hb hs hlb.microStep_effect

/-! ### The decode in the result registers -/

/-- DEC has no inner machine at work. -/
theorem Legal.start_of_dec {s : State} (h : Legal s) (hc : s.seq.cs = .dec) : atPhaseStart s = true := by
  have hrp := h.1.rp
  have hby := h.1.byt
  have hbs := h.1.bs
  have hr : s.seq.rp = .idle := by
    cases hr : s.seq.rp <;> simp_all [rpLegal, pulsesAndPolls]
  have hy : s.seq.byt = .idle := by
    cases hy : s.seq.byt <;> simp_all [bytLegal]
  have hb : s.seq.bs = .idle := by
    cases hb : s.seq.bs <;> simp_all [bsLegal, readSlotLegal]
  exact (h.machinesIdle hr hb hy).start

/-- What `ReadingFits` speaks of. -/
def reading (s : State) : CsState × Byte × Byte × Half × TempWord × Bool :=
  (s.seq.cs, s.regs.lo, s.regs.hi, s.regs.mag16, s.regs.temp, s.flags.sign)

theorem reading_of_outer {s m : State} (h : m.outer = s.outer) : reading m = reading s := by
  obtain ⟨-, hlo, hhi, hmag, htemp, -, -, hsign, -, hcs, -⟩ := outer_eq_iff.mp h
  simp only [reading, hlo, hhi, hmag, htemp, hsign, hcs]

theorem ReadingFits.of_reading {s m : State} (h : ReadingFits s) (hm : reading m = reading s) : ReadingFits m := by
  simp only [reading, Prod.mk.injEq] at hm
  simpa only [ReadingFits, hm] using h

/-- A state of CS other than DEC ends without touching the decode. -/
theorem ReadingFits.after_advance {s m : State} (h : ReadingFits s) (hc : s.seq.cs ≠ .dec)
    (hm : reading m = reading s) : ReadingFits (advance m) := by
  have hcs : m.seq.cs = s.seq.cs := congrArg Prod.fst hm
  obtain hr | hd | hf := h.of_reading hm
  · exact .inr (.inl (by simp [advance, hr]))
  · exact absurd (hcs.symm.trans hd) hc
  · exact .inr (.inr (by simpa using hf))

theorem ReadingFits.after_effect {s t : State} (h : ReadingFits s) (hl : Legal s) (hb : s.flags.busy = true)
    (he : Effect (pollingPhase s.seq) (readingPhase s.seq) s t) : ReadingFits t := by
  cases he with
  | enter hc => exact absurd hc (hl.cs_ne_idle hb)
  | within _ ho => exact h.of_reading (reading_of_outer ho)
  | ended m ho hc =>
    have hne : s.seq.cs ≠ .dec := fun hd => Bool.false_ne_true ((hc hd).symm.trans (hl.start_of_dec hd))
    exact h.after_advance hne (reading_of_outer ho)
  | polled m b hp ho =>
    have hne : s.seq.cs ≠ .dec := fun hd => by simp [pollingPhase, pulsesAndPolls, hd] at hp
    exact h.after_advance hne (reading_of_outer (m := m) ho)
  | read m v hr ho => exact h.after_advance (by simp [hr.1]) (reading_of_outer (m := m) ho)
  | low m v hc ho =>
    have hcs : m.seq.cs = .rdlo := (congrArg Outer.cs ho).trans hc
    exact .inl (by simp [advance, hcs])
  | high m v hc ho =>
    have hcs : m.seq.cs = .rdhi := (congrArg Outer.cs ho).trans hc
    exact .inr (.inl (by simp [advance, hcs]))
  | decoded m hc ho => exact .inr (.inr (by simp))

/-- The decode of two zero bytes is what reset leaves in SIGN, MAG16 and TEMP. -/
theorem readingFits_reset : ReadingFits State.reset := .inr (.inr (by decide))

theorem ReadingFits.after_accept {s : State} (h : ReadingFits s) (hl : Legal s) (hb : s.flags.busy = false)
    (op : OpCode) (arg : Byte) : ReadingFits (accept op arg s) := by
  have hc := hl.1.busy_iff.mp hb
  exact .inr (.inr (by simpa [ReadingFits, hc] using h))

/-- Settles O15, from what each kind of step does to the outer part of the state. -/
theorem stepKeepsReadingFits : Obligations.StepKeepsReadingFits := fun _ _ hl h hst =>
  step_keeps hl hst (fun _ => readingFits_reset) h (fun _ => h)
    (fun op arg hb => ReadingFits.after_accept (s := beginStep _) h hl.after_beginStep hb op arg)
    fun _ _ hu hb h he => h.after_effect hu hb he

/-! ### Noted results -/

/-- The operation that runs writes ABSENT if it polls, RDATA if it reads a bit or a byte, TEMP if it decodes. -/
theorem Legal.writtenBy {s : State} (h : Legal s) :
    (pollingPhase s.seq → ResultPort.absent.writtenBy s.seq.opr = true) ∧
    (readingPhase s.seq → ResultPort.rdata.writtenBy s.seq.opr = true) ∧
    (s.seq.cs = .dec → ResultPort.temp.writtenBy s.seq.opr = true) := by
  have hp := h.1.path
  refine ⟨fun hc => ?_, fun ⟨_, ho⟩ => ?_, fun hc => ?_⟩
  · obtain (hc | hc | hc) | ⟨-, ho⟩ := hc
    · simp only [pathLegal, hc] at hp
      obtain ho | ho := hp <;> rw [ho] <;> rfl
    · simp only [pathLegal, hc] at hp
      rw [hp]; rfl
    · simp only [pathLegal, hc] at hp
      rw [hp]; rfl
    · rw [ho]; rfl
  · obtain ho | ho := ho <;> rw [ho] <;> rfl
  · simp only [pathLegal, hc] at hp
    rw [hp]; rfl

/-- The notes brought up to date in a state: after a completion they take its results. -/
def Results.upTo (r : Results) (s : State) : Results := if s.obs.done then r.note s else r

theorem Results.upTo_eq (r : Results) (s : State) : r.upTo s =
    { absent := if s.obs.done then if ResultPort.absent.writtenBy s.seq.opr then some s.ports.absent else r.absent
        else r.absent
      rdata := if s.obs.done then if ResultPort.rdata.writtenBy s.seq.opr then some s.ports.rdata else r.rdata
        else r.rdata
      temp := if s.obs.done then if ResultPort.temp.writtenBy s.seq.opr then some s.ports.temp else r.temp
        else r.temp } := by
  unfold Results.upTo
  split
  · rfl
  · rfl

theorem Results.upTo_not_done {r : Results} {s : State} (h : s.obs.done = false) : r.upTo s = r := by
  simp [Results.upTo, h]

/-- One port, with its note and its value before and after a step of a busy engine; `w` tells whether the operation
that runs writes it. -/
theorem held_port {α : Type} {note : Option α} {v v' : α} {busy busy' done' w : Bool}
    (h : ∀ x, note = some x → v = x ∨ (busy = true ∧ w = true)) (hv : v' = v ∨ w = true)
    (hc : (busy' = true ∧ done' = false) ∨ (busy' = false ∧ done' = true)) :
    ∀ x, (if done' then if w then some v' else note else note) = some x → v' = x ∨ (busy' = true ∧ w = true) := by
  intro x hx
  cases w with
  | true => obtain ⟨rfl, rfl⟩ | ⟨rfl, rfl⟩ := hc <;> simp_all
  | false =>
    have hnote : note = some x := by simpa using hx
    exact .inl ((hv.resolve_right Bool.false_ne_true).trans ((h x hnote).resolve_right (by simp)))

/-- The host's notes are held, and a busy engine shows no `done`. -/
def NotesHeld (r : Results) (s : State) : Prop :=
  ResultsHeld (r.upTo s) s ∧ (s.flags.busy = true → s.obs.done = false)

theorem notesHeld_of_not_done {r : Results} {s : State} (hd : s.obs.done = false) (h : ResultsHeld r s) :
    NotesHeld r s := ⟨by rwa [Results.upTo_not_done hd], fun _ => hd⟩

theorem NotesHeld.after_effect {r : Results} {s t : State} (h : NotesHeld r s) (hl : Legal s)
    (hb : s.flags.busy = true) (he : Effect (pollingPhase s.seq) (readingPhase s.seq) s t) : NotesHeld r t := by
  obtain ⟨hr, hd⟩ := h
  rw [Results.upTo_not_done (hd hb)] at hr
  obtain ⟨ha, hrd, htemp⟩ := hl.writtenBy
  have hf := he.frame
  have hc : busyStill t ∨ (t.flags.busy = false ∧ t.obs.done = true) :=
    (he.completes ⟨hb, hd hb⟩).imp_right fun h => ⟨h.1.1, h.1.2.1⟩
  refine ⟨⟨?_, ?_, ?_⟩, fun ht => ?_⟩
  · rw [Results.upTo_eq, hf.opr]
    exact held_port hr.absent (hf.absent.imp_right ha) hc
  · rw [Results.upTo_eq, hf.opr]
    exact held_port hr.rdata (hf.rdata.imp_right hrd) hc
  · rw [Results.upTo_eq, hf.opr]
    exact held_port hr.temp (hf.decoded.imp (fun h => h.2.1) fun h => htemp h.1) hc
  · exact (hc.resolve_right fun h => by simp [ht] at h).2

/-- Acceptance by an idle engine: each port still shows what was noted. -/
theorem ResultsHeld.after_accept {r : Results} {s : State} (h : ResultsHeld r s) (hb : s.flags.busy = false)
    (op : OpCode) (arg : Byte) : NotesHeld r (accept op arg s) := by
  obtain ⟨ha, hrd, htemp⟩ := h.of_idle hb
  exact notesHeld_of_not_done rfl
    ⟨fun x hx => .inl (ha x hx), fun x hx => .inl (hrd x hx), fun x hx => .inl (htemp x hx)⟩

/-- Settles O49: hardware reset empties the notes, and every other step keeps them up to date. -/
theorem stepKeepsResultsHeld : Obligations.StepKeepsResultsHeld := by
  intro s t r hl hr hst
  cases hrst : s.env.present.rst with
  | true =>
    rw [Results.afterStep_reset hrst]
    exact resultsHeld_nothing t
  | false =>
    have hb : ResultsHeld r (beginStep s) := ⟨hr.absent, hr.rdata, hr.temp⟩
    have ht : NotesHeld r t :=
      step_keeps hl hst (by simp [hrst]) (notesHeld_of_not_done rfl hb)
        (fun _ => notesHeld_of_not_done rfl ⟨hb.absent, hb.rdata, hb.temp⟩)
        (fun op arg hidle => hb.after_accept hidle op arg) fun _ _ hu hub h he => h.after_effect hu hub he
    simpa [Results.afterStep, Results.upTo, hrst] using ht.1

end Sys2Proof
end

section
/-! PROOFS. The range of the decode, completions, and the registers each step may change. -/

namespace Sys2Proof

open Sys2Proof.Machine

/-! ### The range of the decode (45_temperature_decode.md R215) -/

theorem decodeSign_iff (hi : Byte) : decodeSign hi = true ↔ 7 < hi.toNat := by
  simp [decodeSign, BitVec.ult]

theorem decodeScaled_toNat (mag : Half) : (decodeScaled mag).toNat = mag.toNat * 5 / 8 := by
  have h := mag.isLt
  rw [decodeScaled, BitVec.toNat_ushiftRight, BitVec.toNat_mul, BitVec.toNat_setWidth, Nat.shiftRight_eq_div_pow,
    show (5 : BitVec 19).toNat = 5 from rfl]
  omega

theorem append_toNat (hi lo : Byte) : (hi ++ lo).toNat = 256 * hi.toNat + lo.toNat := by
  rw [BitVec.toNat_append, ← Nat.shiftLeft_add_eq_or_of_lt lo.isLt, Nat.shiftLeft_eq]
  omega

/-- The magnitude is at most 0x07FF on the positive path and at most 0xF7FF on the negative one. -/
theorem decodeMag16_le (hi lo : Byte) : (decodeMag16 hi lo).toNat ≤ if decodeSign hi then 63487 else 2047 := by
  have hlo := lo.isLt
  unfold decodeMag16
  split
  · next hs =>
    have := (decodeSign_iff hi).mp hs
    rw [append_toNat, BitVec.toNat_not, BitVec.toNat_not]
    omega
  · next hs =>
    have := (decodeSign_iff hi).not.mp hs
    rw [append_toNat]
    omega

/-- The scaled magnitude and its negation fit in 32 bits. -/
theorem toInt_scaled (m : BitVec 19) :
    (m.setWidth 32).toInt = m.toNat ∧ (-(m.setWidth 32)).toInt = -(m.toNat : Int) := by
  have hlt := m.isLt
  have hpos : (m.setWidth 32).toInt = m.toNat := by
    rw [BitVec.toInt_eq_toNat_of_lt] <;> simp only [BitVec.toNat_setWidth] <;> omega
  refine ⟨hpos, ?_⟩
  rw [BitVec.toInt_neg, hpos, Int.bmod_eq_of_le] <;> omega

theorem decodeTempWord_inRange (hi lo : Byte) :
    -39679 ≤ (decodeTempWord hi lo).toInt ∧ (decodeTempWord hi lo).toInt ≤ 1279 := by
  have hm := decodeMag16_le hi lo
  have hs := decodeScaled_toNat (decodeMag16 hi lo)
  simp only [decodeTempWord]
  obtain ⟨hpos, hneg⟩ := toInt_scaled (decodeScaled (decodeMag16 hi lo))
  split
  · next h =>
    rw [if_pos h] at hm
    omega
  · next h =>
    rw [if_neg h] at hm
    omega

/-! ### TEMP -/

/-- Settles O14: TEMP is kept, reset or decoded. -/
theorem stepKeepsTempInRange : Obligations.StepKeepsTempInRange := by
  intro s t h hst
  have kept : ∀ {p r : Prop} {u v : State}, TempInRange u → Effect p r u v → TempInRange v := fun hu he => by
    obtain ⟨-, ht, -⟩ | ⟨-, -, ht, -⟩ := he.frame.decoded
    · simpa only [TempInRange, ht] using hu
    · simpa only [TempInRange, ht] using decodeTempWord_inRange _ _
  obtain ⟨-, rfl⟩ | ⟨-, -, -, -, he⟩ | ⟨-, -, -, -, rfl⟩ | ⟨-, -, -, rfl⟩ | ⟨-, -, -, -, rfl⟩ | ⟨-, -, -, rfl⟩ :=
    step_cases hst
  · exact (by decide : TempInRange State.reset)
  · obtain ⟨u, hu, hrun⟩ := exec_eq_phases s.env.present.word (beginStep s)
    obtain rfl : u = t := by simpa [hu] using he
    exact hrun.keeps (P := TempInRange) (fun v _ hv => kept hv (phaseStep_effect v)) h
  · exact h
  · exact h
  · exact kept (u := beginStep s) h (phaseStep_effect _)
  · exact kept (u := beginStep s) h (microStep_effect _)

/-! ### Completions -/

/-- A whole operation ends in its completion. -/
theorem exec_completes (w : CommandWord) (s : State) : ∃ u, exec (decodeCommand w) s = .next (complete u) := by
  obtain ⟨-, hd⟩ | ⟨-, hd⟩ | ⟨-, hd⟩ | ⟨-, hd⟩ | ⟨-, hd⟩ | ⟨-, hd⟩ | ⟨-, hd⟩ | ⟨-, hd⟩ := decodeCommand_cases w <;>
    exact hd ▸ ⟨_, rfl⟩

/-- A step of a busy engine without hardware reset leaves it busy without `done`, or completes the operation. -/
theorem step_busy_completes {s t : State} (hr : s.env.present.rst = false) (hb : s.flags.busy = true)
    (hst : step s = .next t) : busyStill t ∨ justCompleted t := by
  have hs : busyStill (beginStep s) := ⟨hb, rfl⟩
  rw [step_busy hr hb] at hst
  split at hst <;> obtain rfl := Host.Outcome.next.inj hst
  · exact ((phaseStep_effect _).completes hs).imp_right And.left
  · exact ((microStep_effect _).completes hs).imp_right And.left

/-- Settles O19, by the kind of engine the step begins with. -/
theorem doneMarksExactlyTheCompletions : Obligations.DoneMarksExactlyTheCompletions := by
  intro s t hr hst
  cases hb : s.flags.busy with
  | true =>
    obtain ⟨ht, hd⟩ | ⟨ht, hd, -⟩ := step_busy_completes hr hb hst <;> simp [ht, hd]
  | false =>
    rw [step_idle hr hb] at hst
    split at hst
    · next hv =>
      split at hst
      · next hw =>
        obtain ⟨u, hu⟩ := exec_completes s.env.present.word (beginStep s)
        obtain rfl := Host.Outcome.next.inj (hu.symm.trans hst)
        simp [hv, hw]
      · next hw =>
        obtain rfl := Host.Outcome.next.inj hst
        simp [hw]
    · next hv =>
      obtain rfl := Host.Outcome.next.inj hst
      simp [hv]

/-- Where acceptance sends CS, in the words of 10_state.md R32. -/
theorem csAfterAccept_eq : ∀ op : OpCode,
    csAfterAccept op = if op = 0 then .init else if op = 6 ∨ op = 7 then .rp1 else .prim := by decide

/-- Settles O18, from the step of an idle and of a busy engine. -/
theorem acceptanceBusyAndCompletion : Obligations.AcceptanceBusyAndCompletion := by
  refine ⟨fun s hr hb hv hw => ?_, fun s h h' rest hb hr hr' => ?_, fun s t hr hb hst ht => ?_⟩
  · refine ⟨accept s.env.present.cmdOp s.env.present.cmdArg (beginStep s), by simp [step_idle hr hb, hv, hw],
      ?_, rfl, rfl, rfl, rfl⟩
    rw [← csAfterAccept_eq]
    rfl
  · rw [step_busy (s := { s with env.host := h :: rest }) hr hb,
      step_busy (s := { s with env.host := h' :: rest }) hr' hb]
    rfl
  · obtain ⟨hbusy, -⟩ | ⟨-, hd, hc⟩ := step_busy_completes hr hb hst
    · simp [ht] at hbusy
    · exact ⟨hc, hd⟩

/-! ### Which step changes which register -/

/-- Settles O35: the frame of a micro-operation step, its reads placed by legality. -/
theorem registersChangeOnlyInTheirStates : Obligations.RegistersChangeOnlyInTheirStates := by
  intro s t hl hv hr hst
  cases hb : s.flags.busy with
  | false =>
    have ht : t.regs = { s.regs with shreg := t.regs.shreg } ∧ t.flags.sign = s.flags.sign ∧
        t.flags.absent = s.flags.absent := by
      rw [step_idle hr hb, if_neg (by simp [hv] : ¬s.env.view = .byOperation)] at hst
      split at hst <;> obtain rfl := Host.Outcome.next.inj hst <;> exact ⟨rfl, rfl, rfl⟩
    obtain ⟨hregs, hsign, habs⟩ := ht
    rw [hregs, hsign, habs]
    simp
  | true =>
    rw [step_busy hr hb, if_neg (by simp [hv])] at hst
    obtain rfl := Host.Outcome.next.inj hst
    have hf := ((microStep_effect (beginStep s)).mono id
      (Legal.readingPhase_of_resultSlot (s := beginStep s) hl.after_beginStep)).frame
    have hdec : ((microStep (beginStep s)).regs.mag16 = s.regs.mag16 ∧
        (microStep (beginStep s)).regs.temp = s.regs.temp ∧
        (microStep (beginStep s)).flags.sign = s.flags.sign) ∨ s.seq.cs = .dec := hf.decoded.imp_right And.left
    exact ⟨hf.rdata.resolve_left, hf.lo.resolve_left, hf.hi.resolve_left, fun h => hdec.resolve_left fun e => h e.1,
      fun h => hdec.resolve_left fun e => h e.2.1, fun h => hdec.resolve_left fun e => h e.2.2,
      hf.absent.resolve_left⟩

end Sys2Proof
end

section
/-! PROOFS. Each operation as one update of the state it is run in, and what follows for registers and rest. -/

namespace Sys2Proof.Machine

/-! ### What each operation does to a state -/

section
variable (arg : Byte) (s : State)

theorem exec_opReset : exec (.opReset arg) s = .next { s with
    flags := { s.flags with busy := false, outLow := false }
    seq := { s.seq with opr := 1, cs := .idle, rp := .idle, dly := 0 }
    obs := { log := resetTrace.reverse ++ s.obs.log, now := s.obs.now + 765, done := true } } := by
  simp only [exec, execReset, resetSeq_eq]
  rfl

theorem exec_opCheckPresence : exec (.opCheckPresence arg) s = .next { s with
    flags := { s.flags with busy := false, absent := (pollOutcome s.env 0).absent }
    seq := { s.seq with
      opr := 2, cs := .idle, rp := .idle, poll := 0, dly := if (pollOutcome s.env 0).time = 0 then s.seq.dly else 0 }
    env := s.env.consume (pollOutcome s.env 0).answers
    obs := {
      log := (pollOutcome s.env 0).trace.reverse ++ s.obs.log
      now := s.obs.now + (pollOutcome s.env 0).time
      done := true } } := by
  simp only [exec, execCheckPresence, presenceSeq_eq]
  rfl

theorem exec_opInitialize : exec (.opInitialize arg) s = .next { s with
    flags := { s.flags with busy := false, outLow := false, absent := (pollOutcome s.env 0).absent }
    seq := { s.seq with opr := 0, cs := .idle, rp := .idle, poll := 0, dly := 0 }
    env := s.env.consume (pollOutcome s.env 0).answers
    obs := {
      log := (pollOutcome s.env 0).trace.reverse ++ (resetTrace.reverse ++ .Z :: s.obs.log)
      now := s.obs.now + 765 + (pollOutcome s.env 0).time
      done := true } } := by
  simp only [exec, execInitialize, presenceSeq_eq, resetSeq_eq, ite_self]
  rfl

theorem exec_opReadBit : exec (.opReadBit arg) s = .next { s with
    regs := { s.regs with rdata := zextBit (s.env.answer 0) }
    flags := { s.flags with busy := false, outLow := false }
    seq := { s.seq with opr := 3, cs := .idle, bs := .idle, dly := 0 }
    env := s.env.consume 1
    obs := {
      log := (readSlotTrace (s.env.answer 0)).reverse ++ s.obs.log, now := s.obs.now + 64, done := true } } := by
  simp only [exec, execReadBit, readBitSeq, readSlot_state, readSlot_bit]
  rfl

theorem exec_opReadByte : exec (.opReadByte arg) s = .next { s with
    regs := { s.regs with shreg := receivedByte s.env 0, rdata := receivedByte s.env 0 }
    flags := { s.flags with busy := false, outLow := false }
    seq := { s.seq with opr := 4, cs := .idle, bs := .idle, byt := .idle, bitcnt := 8, dly := 0 }
    env := s.env.consume 8
    obs := { log := (readByteTrace s.env 0).reverse ++ s.obs.log, now := s.obs.now + 512, done := true } } := by
  simp only [exec, execReadByte, readByteSeq_eq]
  rfl

theorem exec_opWriteByte : exec (.opWriteByte arg) s = .next { s with
    regs := { s.regs with shreg := 0 }
    flags := { s.flags with busy := false, outLow := false }
    seq := { s.seq with opr := 5, cs := .idle, bs := .idle, byt := .idle, bitcnt := 8, dly := 0 }
    obs := { log := (writeByteTrace arg).reverse ++ s.obs.log, now := s.obs.now + 496, done := true } } := by
  simp only [exec, execWriteByte, writeByteSeq_eq]
  rfl

theorem exec_opStartConversion : exec (.opStartConversion arg) s = .next { s with
    regs := { s.regs with shreg := 0 }
    flags := { s.flags with busy := false, outLow := false, absent := (pollOutcome s.env 0).absent }
    seq := { s.seq with
      opr := 6, cs := .idle, rp := .idle, bs := .idle, byt := .idle, bitcnt := 8, poll := 0, dly := 0 }
    env := s.env.consume (pollOutcome s.env 0).answers
    obs := {
      log := (resetTrace ++ (pollOutcome s.env 0).trace ++ writeByteTrace 0xCC ++ writeByteTrace 0x44).reverse
        ++ s.obs.log
      now := s.obs.now + (1757 + (pollOutcome s.env 0).time)
      done := true } } := by
  simp only [exec, execStartConversion, startConvSeq_eq]
  rfl

/-- In GetTemperature the second poll and the two bytes see the answers that the first poll left. -/
theorem exec_opGetTemperature (e : Env) (he : e = s.env.consume (pollOutcome s.env 0).answers) :
    exec (.opGetTemperature arg) s = .next { s with
      regs := { s.regs with
        shreg := receivedByte e ((pollOutcome e 0).answers + 8)
        lo := receivedByte e (pollOutcome e 0).answers
        hi := receivedByte e ((pollOutcome e 0).answers + 8)
        mag16 := decodeMag16 (receivedByte e ((pollOutcome e 0).answers + 8))
          (receivedByte e (pollOutcome e 0).answers)
        temp := decodeTempWord (receivedByte e ((pollOutcome e 0).answers + 8))
          (receivedByte e (pollOutcome e 0).answers) }
      flags := {
        busy := false
        absent := (pollOutcome e 0).absent
        sign := decodeSign (receivedByte e ((pollOutcome e 0).answers + 8))
        outLow := false }
      seq := { s.seq with
        opr := 7, cs := .idle, rp := .idle, bs := .idle, byt := .idle, bitcnt := 8, poll := 0, dly := 0 }
      env := e.consume ((pollOutcome e 0).answers + 16)
      obs := {
        log := (resetTrace ++ (pollOutcome e 0).trace ++ writeByteTrace 0xCC ++ writeByteTrace 0xBE
            ++ readByteTrace e (pollOutcome e 0).answers ++ readByteTrace e ((pollOutcome e 0).answers + 8)).reverse
          ++ ((resetTrace ++ (pollOutcome s.env 0).trace ++ writeByteTrace 0xCC ++ writeByteTrace 0x44).reverse
            ++ s.obs.log)
        now := s.obs.now + (1757 + (pollOutcome s.env 0).time) + (2781 + (pollOutcome e 0).time)
        done := true } } := by
  subst he
  simp only [exec, execGetTemperature, readScratchpadSeq_eq, startConvSeq_eq, accept, setCs, decodeTemp, complete]

theorem exec_wireSkipRom : exec .wireSkipRom s = .next (writeByteSeq Config.cmdSkipRom s) := rfl
theorem exec_wireConvertT : exec .wireConvertT s = .next (writeByteSeq Config.cmdConvertT s) := rfl
theorem exec_wireReadScratchpad : exec .wireReadScratchpad s = .next (writeByteSeq Config.cmdReadSp s) := rfl

end

end Sys2Proof.Machine

namespace Sys2Proof

open Sys2Proof.Machine

/-! ### Frames (10_state.md R44, R45) -/

theorem zextBit_cases (b : Bool) : zextBit b = 0 ∨ zextBit b = 1 := by cases b <;> decide

/-- Settles O33: each operation's update, read field by field. -/
theorem operationsWriteOnlyTheirRegisters : Obligations.OperationsWriteOnlyTheirRegisters := by
  intro arg s
  refine ⟨⟨_, exec_opInitialize arg s, ?_⟩, ⟨_, exec_opReset arg s, ?_⟩, ⟨_, exec_opCheckPresence arg s, ?_⟩,
    ⟨_, exec_opReadBit arg s, ?_⟩, ⟨_, exec_opReadByte arg s, ?_⟩, ⟨_, exec_opWriteByte arg s, ?_⟩,
    ⟨_, exec_opStartConversion arg s, ?_⟩, ⟨_, exec_opGetTemperature arg s _ rfl, ?_⟩⟩
  · exact ⟨rfl, rfl, rfl⟩
  · exact ⟨rfl, rfl, rfl, rfl⟩
  · exact ⟨rfl, rfl, rfl⟩
  · exact ⟨rfl, zextBit_cases _, rfl, rfl, rfl⟩
  · exact ⟨rfl, rfl, rfl, rfl⟩
  · exact ⟨rfl, rfl, rfl, rfl⟩
  · exact ⟨rfl, rfl, rfl⟩
  · exact ⟨rfl, rfl, rfl⟩

/-- Settles O34: each operation's update from rest. -/
theorem operationsEndAtRest : Obligations.OperationsEndAtRest := by
  rintro w s ⟨-, hout, -, hrp, hbs, hbyt, hpoll, hdly, hslot⟩
  obtain ⟨ho, hd⟩ | ⟨ho, hd⟩ | ⟨ho, hd⟩ | ⟨ho, hd⟩ | ⟨ho, hd⟩ | ⟨ho, hd⟩ | ⟨ho, hd⟩ | ⟨ho, hd⟩ :=
    decodeCommand_cases w <;> rw [hd, ho]
  · refine ⟨_, exec_opInitialize _ s, ?_⟩
    simp [AtRest, *]
  · refine ⟨_, exec_opReset _ s, ?_⟩
    simp [AtRest, *]
  · refine ⟨_, exec_opCheckPresence _ s, ?_⟩
    simp [AtRest, *]
  · refine ⟨_, exec_opReadBit _ s, ?_⟩
    simp [AtRest, *]
  · refine ⟨_, exec_opReadByte _ s, ?_⟩
    simp [AtRest, *]
  · refine ⟨_, exec_opWriteByte _ s, ?_⟩
    simp [AtRest, *]
  · refine ⟨_, exec_opStartConversion _ s, ?_⟩
    simp [AtRest, *]
  · refine ⟨_, exec_opGetTemperature _ s _ rfl, ?_⟩
    simp [AtRest, *]

/-- Settles O36: each operation's update reads the line, the sequencer and the trace, and of the registers and flags
keeps what it does not write. -/
theorem oldRegistersDoNotMatter : Obligations.OldRegistersDoNotMatter := by
  intro i s r f
  cases i with
  | opInitialize arg => exact ⟨_, _, exec_opInitialize arg s, exec_opInitialize arg _, by simp [trace_eq]⟩
  | opReset arg => exact ⟨_, _, exec_opReset arg s, exec_opReset arg _, by simp [trace_eq]⟩
  | opCheckPresence arg => exact ⟨_, _, exec_opCheckPresence arg s, exec_opCheckPresence arg _, by simp [trace_eq]⟩
  | opReadBit arg => exact ⟨_, _, exec_opReadBit arg s, exec_opReadBit arg _, by simp [trace_eq]⟩
  | opReadByte arg => exact ⟨_, _, exec_opReadByte arg s, exec_opReadByte arg _, by simp [trace_eq]⟩
  | opWriteByte arg => exact ⟨_, _, exec_opWriteByte arg s, exec_opWriteByte arg _, by simp [trace_eq]⟩
  | opStartConversion arg =>
    exact ⟨_, _, exec_opStartConversion arg s, exec_opStartConversion arg _, by simp [trace_eq]⟩
  | opGetTemperature arg =>
    exact ⟨_, _, exec_opGetTemperature arg s _ rfl, exec_opGetTemperature arg _ _ rfl, by simp [trace_eq]⟩
  | wireSkipRom => exact ⟨_, _, exec_wireSkipRom s, exec_wireSkipRom _, by simp [trace_eq, writeByteSeq_eq]⟩
  | wireConvertT => exact ⟨_, _, exec_wireConvertT s, exec_wireConvertT _, by simp [trace_eq, writeByteSeq_eq]⟩
  | wireReadScratchpad =>
    exact ⟨_, _, exec_wireReadScratchpad s, exec_wireReadScratchpad _, by simp [trace_eq, writeByteSeq_eq]⟩

end Sys2Proof
end

section
/-! PROOFS. The step and the views: what a step fetches, phase by phase, and tick by tick. -/

namespace Sys2Proof

open Sys2Proof.Machine

/-! ### Fetching -/

/-- Settles O7: in both views the step is the meaning of what it fetches. -/
theorem stepRunsTheFetchedInstruction : Obligations.StepRunsTheFetchedInstruction := by
  refine ⟨fun s i hr hb hv hw hd => ?_, fun s t b i hr hb hv ha hw hd he => ?_⟩
  · obtain rfl : decodeCommand s.env.present.word = i := by simpa [decode] using hd
    rw [step_idle hr hb, if_pos hv, if_pos hw]
  · obtain ⟨i', hd', he', hc⟩ := wire_fetch_runs_phase (s := beginStep s) hw
    obtain rfl : i' = i := Except.ok.inj (hd'.symm.trans hd)
    obtain rfl : phaseSeq (beginStep s) = t := Host.Outcome.next.inj (he'.symm.trans he)
    rw [step_busy hr hb, if_pos ⟨hv, ha⟩, phaseStep, if_neg hc]

/-- A command presented to an idle engine is what the next step runs. -/
theorem step_presentCommand (w : CommandWord) (s : State) :
    step (presentCommand w s) = exec (decodeCommand w) (beginStep (presentCommand w s)) := by
  have hw : (presentCommand w s).env.present.word = w := commandWord_fields w
  exact stepRunsTheFetchedInstruction.1 _ _ rfl rfl rfl rfl (by rw [hw]; rfl)

theorem withFetchWord_command (w : CommandWord) (s : State) :
    s.withFetchWord (codeNumber (.cmd11 w)).1 (codeNumber (.cmd11 w)).2 = presentCommand w s := by
  have hfits : numberFits 16 w.toNat = true := by simp [numberFits, w.isLt]
  simp [State.withFetchWord, codeNumber, placeWord, hfits]

theorem placed_command (w : CommandWord) (s : State) : ∃ placed : State,
    placed = s.withFetchWord (codeNumber (.cmd11 w)).1 (codeNumber (.cmd11 w)).2 ∧ placed.regs = s.regs ∧
    ∃ t, exec (decodeCommand w) (beginStep placed) = .next t ∧
      step placed = .next (if placed.flags.busy = true then advance t else t) := by
  obtain ⟨u, hu⟩ := exec_completes w (beginStep (presentCommand w s))
  refine ⟨presentCommand w s, (withFetchWord_command w s).symm, rfl, _, hu, ?_⟩
  rw [step_presentCommand, hu]
  rfl

/-- The sequencer stood at a sending phase runs the byte of that phase. -/
theorem placed_wireByte {c : CsState} {b : Byte} {i : Instr} (s : State) (hc : wireByte c = some b)
    (hd : decode (.wire8 b) = .ok i) {t : State} (he : exec i (beginStep (standAtPhase c s)) = .next t) :
    step (standAtPhase c s) = .next (if (standAtPhase c s).flags.busy = true then advance t else t) :=
  stepRunsTheFetchedInstruction.2 _ _ b i rfl rfl (by simp [standAtPhase]) rfl hc hd he

theorem decodeCommand_of_encode {i : Instr} {w : CommandWord} (h : encode i = .cmd11 w) : decodeCommand w = i := by
  cases i <;> simp only [encode, CodeWord.cmd11.injEq, reduceCtorEq] at h <;> subst h <;>
    simp [decodeCommand, opOf_commandWord, argOf_commandWord]

theorem wire_of_encode {i : Instr} {b : Byte} (h : encode i = .wire8 b) :
    i = .wireSkipRom ∨ i = .wireConvertT ∨ i = .wireReadScratchpad := by
  cases i <;> simp_all [encode]

/-- Settles O8, by the format of the instruction's code word. -/
theorem placedInstructionRunsNext : Obligations.PlacedInstructionRunsNext := by
  intro i s
  cases hw : encode i with
  | cmd11 w => exact decodeCommand_of_encode hw ▸ placed_command w s
  | wire8 b =>
    obtain rfl | rfl | rfl := wire_of_encode hw <;> cases hw
    · exact ⟨standAtPhase .skip1 s, rfl, rfl, _, rfl, placed_wireByte s rfl rfl rfl⟩
    · exact ⟨standAtPhase .conv s, rfl, rfl, _, rfl, placed_wireByte s rfl rfl rfl⟩
    · exact ⟨standAtPhase .rdsp s, rfl, rfl, _, rfl, placed_wireByte s rfl rfl rfl⟩

/-! ### Reset and rest -/

/-- Settles O10: in any state the step with `rst` is `hardwareReset`. -/
theorem hardwareResetLeavesResetValues : Obligations.HardwareResetLeavesResetValues := fun s hr =>
  ⟨hardwareReset (beginStep s), by simp [step, hr], by simp [State.reset]⟩

/-- In a legal state an engine that is not busy is at rest. -/
theorem Legal.atRest {s : State} (h : Legal s) (hb : s.flags.busy = false) : AtRest s := by
  have hi := h.machinesIdle_of_idle hb
  exact ⟨hb, hi.line, h.1.busy_iff.mp hb, hi.rp, hi.bs, hi.byt, hi.poll, hi.dly, hi.slotBit⟩

/-- Settles O13: idle machines are at rest. -/
theorem idleEngineIsAtRest : Obligations.IdleEngineIsAtRest := fun _ => Legal.atRest

/-- Settles O11: the reset state is a hardware reset of itself. -/
theorem resetStateIsLegal : Obligations.ResetStateIsLegal := by
  have h : Legal State.reset := hardwareReset_legal State.reset
  exact ⟨h, h.atRest rfl, by decide, readingFits_reset⟩

/-! ### Column "next" -/

/-- The column "next" of 10_state.md R32. -/
def nextPhase (q : Sequencer) : CsState :=
  if q.cs = .conv ∧ q.opr ≠ 7 then .idle else followingPhase q.cs

/-- After a phase step CS is where the table says, and BUSY is 0 exactly in IDLE. -/
theorem phaseStep_next {s : State} (hb : s.flags.busy = true) (hc : s.seq.cs ≠ .idle) :
    (phaseStep s).seq.cs = nextPhase s.seq ∧ ((phaseStep s).flags.busy = false ↔ (phaseStep s).seq.cs = .idle) := by
  cases h : s.seq.cs with
  | idle => exact absurd h hc
  | rp1 => simp [phaseStep_rp1 h, nextPhase, followingPhase, h, hb]
  | skip1 => simp [phaseStep_skip1 h, nextPhase, followingPhase, h, hb]
  | conv =>
    by_cases ho : s.seq.opr = 7
    · simp [phaseStep_conv_next h ho, nextPhase, followingPhase, h, ho, hb]
    · have ho' : s.seq.opr ≠ 7#3 := ho
      simp [phaseStep_conv_last h ho, nextPhase, h, ho']
  | rp2 => simp [phaseStep_rp2 h, nextPhase, followingPhase, h, hb]
  | skip2 => simp [phaseStep_skip2 h, nextPhase, followingPhase, h, hb]
  | rdsp => simp [phaseStep_rdsp h, nextPhase, followingPhase, h, hb]
  | rdlo => simp [phaseStep_rdlo h, nextPhase, followingPhase, h, hb, readByteToLo_busy, -shregToLo_eq]
  | rdhi => simp [phaseStep_rdhi h, nextPhase, followingPhase, h, hb, readByteToHi_busy, -shregToHi_eq]
  | dec => simp [phaseStep_dec h, nextPhase, followingPhase, h]
  | prim => simp [phaseStep_prim h, nextPhase, followingPhase, h]
  | init => simp [phaseStep_init h, nextPhase, followingPhase, h]

/-- Settles O23, by the rows of the table of CS. -/
theorem phaseStepFollowsTheTable : Obligations.PhaseStepFollowsTheTable := by
  intro s hr hb hv ha hc
  obtain ⟨hcs, hbusy⟩ := phaseStep_next (s := beginStep s) hb hc
  have hdone : (phaseStep (beginStep s)).obs.done = true ↔ (phaseStep (beginStep s)).flags.busy = false := by
    obtain ⟨hb', hd'⟩ | ⟨⟨hb', hd', -⟩, -⟩ := (phaseStep_effect (beginStep s)).completes ⟨hb, rfl⟩ <;> simp [hb', hd']
  refine ⟨phaseStep (beginStep s), by rw [step_busy hr hb, if_pos ⟨by simp [hv], ha⟩], ?_, hbusy, hdone.trans hbusy⟩
  rw [hcs, beginStep_seq, nextPhase]
  cases h : s.seq.cs <;> simp [followingPhase]

end Sys2Proof
end

section
/-! PROOFS. Runs of a busy engine as runs of the machine: state of CS by state of CS, and tick by tick. -/

namespace Sys2Proof

open Sys2Proof.Machine

/-! ### A run of a busy engine with a quiet host -/

theorem steps_succ {n : Nat} {s t : State} (h : step s = .next t) : steps (n + 1) s = steps n t := by
  have h' : Sys2Proof.core.step s = .next t := h
  simp only [steps, Host.Core.run, h']
  rfl

/-- A run of `f`, when the machine's step is `f` in every busy state of it. -/
theorem Machine.BusyRun.steps {f : State → State} {P : State → Prop}
    (hf : ∀ s, P s → s.flags.busy = true → step s = .next (f s) ∧ P (f s)) {n : Nat} {s t : State}
    (h : BusyRun f n s t) (hs : P s) :
    steps n s = .next t ∧ ∀ k, k < n → ∃ u, steps k s = .next u ∧ u.flags.busy = true := by
  induction h with
  | nil s => exact ⟨rfl, fun k hk => absurd hk (Nat.not_lt_zero k)⟩
  | @cons n s t hb _ ih =>
    obtain ⟨hstep, hP⟩ := hf s hs hb
    obtain ⟨hrun, hbusy⟩ := ih hP
    refine ⟨(steps_succ hstep).trans hrun, fun k hk => ?_⟩
    cases k with
    | zero => exact ⟨s, rfl, hb⟩
    | succ k =>
      rw [steps_succ hstep]
      exact hbusy k (Nat.lt_of_succ_lt_succ hk)

/-- The engine is watched in view `v`, no host input is to come, and `done` is not shown while it is busy. -/
structure QuietHost (v : View) (s : State) : Prop where
  view : s.env.view = v
  host : s.env.host = []
  done : s.flags.busy = true → s.obs.done = false

/-- A step takes nothing from a host that has nothing more to present. -/
theorem beginStep_env_of_quiet {s : State} (h : s.env.host = []) : (beginStep s).env = s.env := by
  rw [beginStep_env, h, List.tail_nil, ← h]

theorem QuietHost.beginStep_eq {v : View} {s : State} (h : QuietHost v s) (hb : s.flags.busy = true) :
    beginStep s = s := by
  refine State.eq_of_parts rfl rfl rfl (beginStep_env_of_quiet h.host) ?_
  simp [beginStep, ← h.done hb]

theorem QuietHost.noReset {v : View} {s : State} (h : QuietHost v s) : s.env.present.rst = false := by
  simp [Env.present, h.host]

theorem QuietHost.after_effect {v : View} {s t : State} {p r : Prop} (h : QuietHost v s) (hb : s.flags.busy = true)
    (he : Effect p r s t) : QuietHost v t where
  view := he.frame.view.trans h.view
  host := he.frame.host.trans h.host
  done := fun ht => by
    obtain ht' | ⟨⟨hb', -⟩, -⟩ := he.completes ⟨hb, h.done hb⟩
    · exact ht'.2
    · simp [ht] at hb'

/-- In the micro-operation view a run of micro-operations is a run of the machine. -/
theorem micro_steps {n : Nat} {s t : State} (h : BusyRun microStep n s t) (hs : QuietHost .byMicroOperation s) :
    steps n s = .next t ∧ ∀ k, k < n → ∃ u, steps k s = .next u ∧ u.flags.busy = true := by
  refine h.steps (fun s hs hb => ⟨?_, hs.after_effect hb (microStep_effect s)⟩) hs
  rw [step_busy hs.noReset hb, if_neg (by simp [hs.view]), hs.beginStep_eq hb]

/-- Acceptance of the one word that a host presents. -/
theorem accept_presented {v : View} (hv : v ≠ .byOperation) (w : CommandWord) {s : State} (hb : s.flags.busy = false) :
    step (watched v [presenting w] s) = .next (accept (opOf w) (argOf w) (watched v [] s)) ∧
    QuietHost v (accept (opOf w) (argOf w) (watched v [] s)) := by
  have hb' : (watched v [presenting w] s).flags.busy = false := hb
  refine ⟨?_, rfl, rfl, fun _ => rfl⟩
  rw [step_idle rfl hb']
  exact (if_pos rfl).trans (if_neg hv)

/-! ### State of CS by state of CS (44_command_sequences.md R195) -/

/-- The inner machines are where a state of CS begins, and the operation's code allows the state. -/
structure Ready (s : State) : Prop where
  start : atPhaseStart s = true
  slotBit : s.seq.slotBit = none
  path : pathLegal s.seq
  cs : s.flags.busy = true → s.seq.cs ≠ .idle

theorem phaseSeq_start {s : State} (h : atPhaseStart s = true) :
    atPhaseStart (phaseSeq s) = true ∧ (phaseSeq s).seq.slotBit = s.seq.slotBit := by
  obtain ⟨hr, hb, hy, hd⟩ := atPhaseStart_iff.mp h
  have prim : atPhaseStart (primitiveSeq s) = true ∧ (primitiveSeq s).seq.slotBit = s.seq.slotBit := by
    unfold primitiveSeq
    split <;>
      simp [atPhaseStart_iff, resetSeq_eq, presenceSeq_eq, readBitSeq, readSlot_state, readByteSeq_eq, writeByteSeq_eq, *]
  unfold phaseSeq
  split <;> simp [atPhaseStart_iff, resetSeq_eq, presenceSeq_eq, resetPresence_eq, readByteSeq_eq, writeByteSeq_eq, *]

theorem Ready.after_phaseStep {s : State} (h : Ready s) (hb : s.flags.busy = true) : Ready (phaseStep s) := by
  have hc := h.cs hb
  obtain ⟨-, hcs, hopr⟩ := phaseSeq_control s
  obtain ⟨hstart, hslot⟩ := phaseSeq_start h.start
  obtain ⟨hr, hs, hy, hd⟩ := atPhaseStart_iff.mp hstart
  obtain ⟨-, hidle⟩ := phaseStep_next hb hc
  have hphase : phaseStep s = advance (phaseSeq s) := if_neg hc
  have hpath : pathLegal (advance (phaseSeq s)).seq := by
    have hc' : (phaseSeq s).seq.cs ≠ .idle := hcs ▸ hc
    by_cases hl : lastPhase (phaseSeq s).seq
    · rw [advance_of_last hl]
      trivial
    · rw [(advance_of_not_last hl hc').1]
      exact pathLegal_followingPhase (pathLegal_congr hcs hopr h.path) hl hc'
  refine ⟨?_, ?_, hphase ▸ hpath, fun hb' hc' => by simp [hidle.mpr hc'] at hb'⟩
  · simp [hphase, atPhaseStart_iff, hr, hs, hy, hd]
  · simp [hphase, hslot, h.slotBit]

/-- In the phase view a run of states of CS is a run of the machine. -/
theorem phase_steps {n : Nat} {s t : State} (h : BusyRun phaseStep n s t) (hs : QuietHost .byPhase s) (hr : Ready s) :
    steps n s = .next t := by
  refine (h.steps (P := fun s => QuietHost .byPhase s ∧ Ready s) (fun s hs hb => ⟨?_, ?_⟩) ⟨hs, hr⟩).1
  · rw [step_busy hs.1.noReset hb, if_pos ⟨by simp [hs.1.view], hs.2.start⟩, hs.1.beginStep_eq hb]
  · exact ⟨hs.1.after_effect hb (phaseStep_effect s), hs.2.after_phaseStep hb⟩

/-- Acceptance at rest. -/
theorem ready_accept {s : State} (h : AtRest s) (op : OpCode) (arg : Byte) : Ready (accept op arg s) := by
  obtain ⟨-, -, -, hr, hs, hy, -, hd, hslot⟩ := h
  obtain ⟨hne, hp⟩ := csAfterAccept_path op
  refine ⟨atPhaseStart_iff.mpr ⟨hr, hs, hy, hd⟩, hslot, ?_, fun _ => hne⟩
  obtain ⟨hc, ho⟩ | ⟨hc, ho⟩ | ⟨hc, ho⟩ := hp <;> simpa [pathLegal, hc] using ho

/-- Settles O17: a whole operation is acceptance and a run of states of CS. -/
theorem phasesRefineTheOperation : Obligations.PhasesRefineTheOperation := by
  intro s t w hs he
  obtain ⟨u, hu, hrun⟩ := exec_eq_phases w (watched .byPhase [] s)
  obtain rfl : u = t := Host.Outcome.next.inj (hu.symm.trans he)
  obtain ⟨hstep, hquiet⟩ := accept_presented (v := .byPhase) (by simp) w hs.1
  rw [Nat.add_comm]
  exact (steps_succ hstep).trans (phase_steps hrun hquiet (ready_accept (s := watched .byPhase [] s) hs _ _))

/-! ### Tick by tick (10_state.md R36) -/

/-- `n` microseconds of a running delay have passed. -/
def elapsed (n : Nat) (s : State) : State :=
  { s with seq.dly := s.seq.dly - BitVec.ofNat 10 n, obs.now := s.obs.now + n }

theorem elapsed_zero (s : State) : elapsed 0 s = s := by simp [elapsed]

theorem countDown_elapsed (n : Nat) (s : State) : countDown (elapsed n s) = elapsed (n + 1) s := by
  refine State.eq_of_parts rfl rfl ?_ rfl ?_
  · simp [countDown, elapsed, BitVec.ofNat_add, BitVec.sub_sub]
  · simp [countDown, elapsed, Nat.add_assoc]

theorem elapsed_dly {n : Nat} {s : State} (h : n ≤ s.seq.dly.toNat) :
    (elapsed n s).seq.dly.toNat = s.seq.dly.toNat - n := by
  have hlt := s.seq.dly.isLt
  simp only [elapsed]
  bv_omega

/-- All ticks of a delay but the last only count. -/
theorem ticks_run {n : Nat} {s : State} (hb : s.flags.busy = true) (hn : n < s.seq.dly.toNat) :
    BusyRun microStep n s (elapsed n s) := by
  induction n with
  | zero => rw [elapsed_zero]; exact .nil s
  | succ n ih =>
    have hd := elapsed_dly (n := n) (s := s) (by omega)
    have hne : (elapsed n s).seq.dly ≠ 0 := fun h => by
      rw [h] at hd
      simp at hd
      omega
    have hstep : microStep (elapsed n s) = elapsed (n + 1) s := by
      rw [microStep, if_pos hne, tick_running _ (by omega), ← countDown_elapsed]
      rfl
    have hlast : BusyRun microStep 1 (elapsed n s) (elapsed (n + 1) s) := .cons hb (hstep ▸ .nil _)
    exact (ih (by omega)).append hlast

/-- The last tick ends the delay. -/
theorem delay_run {s : State} (hb : s.flags.busy = true) (hn : 0 < s.seq.dly.toNat) :
    BusyRun microStep s.seq.dly.toNat s (delayEnded (elapsed s.seq.dly.toNat s)) := by
  obtain ⟨n, hd⟩ : ∃ n, s.seq.dly.toNat = n + 1 := ⟨_, (Nat.succ_pred_eq_of_pos hn).symm⟩
  have hrest := elapsed_dly (n := n) (s := s) (by omega)
  have hone : (elapsed n s).seq.dly = 1 := BitVec.eq_of_toNat_eq (by rw [hrest, hd]; simp)
  have hstep : microStep (elapsed n s) = delayEnded (elapsed (n + 1) s) := by
    rw [microStep, if_pos (by simp [hone]), tick, if_pos (by simp [hone]), countDown_elapsed]
  have hlast : BusyRun microStep 1 (elapsed n s) (delayEnded (elapsed (n + 1) s)) := .cons hb (hstep ▸ .nil _)
  rw [hd]
  exact (ticks_run hb (by omega)).append hlast

theorem delayEnded_of_not_polling {s : State} (h : s.seq.bs ≠ .idle ∨ (s.seq.rp ≠ .prA ∧ s.seq.rp ≠ .prB)) :
    delayEnded s = record (.D (delayLength s.seq)) s := by
  unfold delayEnded
  split
  · simp_all
  · simp_all
  · rfl

theorem delayEnded_of_polling {s : State} {bound : Nat} (hb : s.seq.bs = .idle)
    (h : (s.seq.rp = .prA ∧ bound = 200) ∨ (s.seq.rp = .prB ∧ bound = 240)) :
    delayEnded s = boundPolls bound (countPoll (record (.D (delayLength s.seq)) s)) := by
  obtain ⟨hr, rfl⟩ | ⟨hr, rfl⟩ := h <;> simp [delayEnded, hb, hr]

/-- At a poll phase's bound the poll ends with a timeout, below it nothing happens. -/
theorem boundPolls_below {s : State} {bound : Nat} (h : s.seq.poll.toNat ≠ bound) : boundPolls bound s = s := if_neg h

theorem boundPolls_at {s : State} {bound : Nat} (h : s.seq.poll.toNat = bound) :
    boundPolls bound s = advance (endPoll true s) := if_pos h

/-- What the end of a delay leaves as it was, in every state of the sequencer. -/
theorem delayEnded_frame (s : State) : (delayEnded s).seq.dly = s.seq.dly ∧ (delayEnded s).obs.now = s.obs.now ∧
    (delayEnded s).obs.log = .D (delayLength s.seq) :: s.obs.log ∧
    (delayEnded s).flags.outLow = s.flags.outLow ∧ (delayEnded s).env = s.env ∧ (delayEnded s).regs = s.regs ∧
    (delayEnded s).flags.sign = s.flags.sign := by
  unfold delayEnded boundPolls
  split
  · split <;> simp
  · split <;> simp
  · simp

theorem beginStep_idem {s : State} (h : s.env.host = []) : beginStep (beginStep s) = beginStep s := by
  refine State.eq_of_parts rfl rfl rfl (beginStep_env_of_quiet ?_) rfl
  rw [beginStep_env_of_quiet h, h]

/-- With no host input to come, a run begins as if the step had begun already. -/
theorem steps_beginStep {n : Nat} {s : State} (hb : s.flags.busy = true) (hv : s.env.view = .byMicroOperation)
    (hh : s.env.host = []) (hn : 0 < n) : steps n s = steps n (beginStep s) := by
  have hr : s.env.present.rst = false := by simp [Env.present, hh]
  have hr' : (beginStep s).env.present.rst = false := by simp [Env.present, hh]
  obtain ⟨n, rfl⟩ := Nat.exists_eq_succ_of_ne_zero hn.ne'
  have hstep : step s = .next (microStep (beginStep s)) := by rw [step_busy hr hb, if_neg (by simp [hv])]
  have hstep' : step (beginStep s) = .next (microStep (beginStep s)) := by
    rw [step_busy hr' hb, if_neg (by simp [hv]), beginStep_idem hh]
  rw [Nat.succ_eq_add_one, steps_succ hstep, steps_succ hstep']

/-- A poll counted below the bound, and at it, is not another's for having wrapped round. -/
theorem countedPoll_eq_bound_iff {p : BitVec 8} {bound : Nat} (h : bound = 200 ∨ bound = 240) :
    (p + 1).toNat = bound ↔ p.toNat + 1 = bound := by
  have hp := p.isLt
  rw [BitVec.toNat_add, show (1 : BitVec 8).toNat = 1 from rfl]
  omega

/-- Settles O22, from the run of a delay's ticks. -/
theorem delayTakesItsTicks : Obligations.DelayTakesItsTicks := by
  intro s hb hv hh hd
  have hq : QuietHost .byMicroOperation (beginStep s) := ⟨hv, by simp [hh], fun _ => rfl⟩
  have hel : ∀ k, elapsed k (beginStep s) =
      { s with seq.dly := s.seq.dly - BitVec.ofNat 10 k, obs.now := s.obs.now + k, obs.done := false } := fun k =>
    State.eq_of_parts rfl rfl rfl (beginStep_env_of_quiet hh) rfl
  refine ⟨fun k hk hk0 => ?_, ?_⟩
  · rw [steps_beginStep hb hv hh hk0, (micro_steps (ticks_run (s := beginStep s) hb hk) hq).1, hel]
  obtain ⟨u, hu, hseq⟩ : ∃ u, u = elapsed s.seq.dly.toNat (beginStep s) ∧ u.seq = { s.seq with dly := 0 } :=
    ⟨_, rfl, by simp [elapsed]⟩
  obtain ⟨hdly, hnow, hlog, hout, henv, hregs, hsign⟩ := delayEnded_frame u
  refine ⟨delayEnded u, ?_, by rw [hdly, hseq], ?_, ?_, ?_, ?_, ?_, ?_, fun h => ?_, fun bound hbs h => ?_⟩
  · rw [steps_beginStep hb hv hh hd, hu]
    exact (micro_steps (delay_run (s := beginStep s) hb hd) hq).1
  · rw [hnow, hu]; rfl
  · rw [hlog, hu]; rfl
  · rw [hout, hu]; rfl
  · rw [henv, hu, hel]
  · rw [hregs, hu]; rfl
  · rw [hsign, hu]; rfl
  · rw [delayEnded_of_not_polling (by rwa [hseq])]
    exact ⟨hseq, by rw [hu]; rfl, by rw [hu]; rfl⟩
  · have hcount : (countPoll (record (.D (delayLength u.seq)) u)).seq.poll.toNat = bound ↔
        s.seq.poll.toNat + 1 = bound := by
      rw [← countedPoll_eq_bound_iff (h.imp And.right And.right), countPoll_eq, setPoll_poll, record_seq, hseq]
    rw [delayEnded_of_polling (by rwa [hseq]) (by rwa [hseq])]
    refine ⟨fun hne => ?_, fun he => ?_⟩
    · rw [boundPolls_below (mt hcount.mp hne)]
      refine ⟨?_, by rw [hu]; rfl, by rw [hu]; rfl⟩
      simp [setPoll, hseq]
    · rw [boundPolls_at (hcount.mpr he)]
      simp

end Sys2Proof
end

section
/-! PROOFS. The micro-operation machine runs each sub-sequence of the pseudocode, and so each state of CS. -/

namespace Sys2Proof

open Sys2Proof.Machine

/-! ### The micro-operation of each state of the innermost machine at work (10_state.md R33 to R35) -/

section
variable {s : State} (hd : s.seq.dly = 0)
include hd

theorem microStep_w1Low (hb : s.seq.bs = .w1Low) :
    microStep s = (s |> setBs .w1Rec |> release |> loadDelay Config.tW1h) := by
  rw [microStep, if_neg (not_not.mpr hd), hb]

theorem microStep_w0Low (hb : s.seq.bs = .w0Low) :
    microStep s = (s |> setBs .w0Rec |> release |> loadDelay Config.tW0h) := by
  rw [microStep, if_neg (not_not.mpr hd), hb]

theorem microStep_w1Rec (hb : s.seq.bs = .w1Rec) : microStep s = slotCounted id s := by
  rw [microStep, if_neg (not_not.mpr hd), hb]

theorem microStep_w0Rec (hb : s.seq.bs = .w0Rec) : microStep s = slotCounted id s := by
  rw [microStep, if_neg (not_not.mpr hd), hb]

theorem microStep_rLow (hb : s.seq.bs = .rLow) :
    microStep s = (s |> setBs .rWait |> release |> loadDelay Config.tRds) := by
  rw [microStep, if_neg (not_not.mpr hd), hb]

theorem microStep_rWait (hb : s.seq.bs = .rWait) : microStep s =
    (s |> sampled |> setSlotBit (some (lineLevel s)) |> setBs .rPad |> loadDelay Config.tRdpad) := by
  rw [microStep, if_neg (not_not.mpr hd), hb]

theorem microStep_rPad (hb : s.seq.bs = .rPad) : microStep s = readSlotEnded s := by
  rw [microStep, if_neg (not_not.mpr hd), hb]

variable (hb : s.seq.bs = .idle)
include hb

theorem microStep_wr (hy : s.seq.byt = .wr) : microStep s = startWriteSlot s := by
  rw [microStep, if_neg (not_not.mpr hd), hb, hy]

theorem microStep_rd (hy : s.seq.byt = .rd) : microStep s = startReadSlot s := by
  rw [microStep, if_neg (not_not.mpr hd), hb, hy]

variable (hy : s.seq.byt = .idle)
include hy

theorem microStep_rstLow (hr : s.seq.rp = .rstLow) :
    microStep s = (s |> setRp .rstRec |> release |> loadDelay Config.tRstrec) := by
  rw [microStep, if_neg (not_not.mpr hd), hb, hy, hr]

theorem microStep_rstRec (hr : s.seq.rp = .rstRec) : microStep s = pulseEnded s := by
  rw [microStep, if_neg (not_not.mpr hd), hb, hy, hr]

theorem microStep_prA (hr : s.seq.rp = .prA) : microStep s = pollA s := by
  rw [microStep, if_neg (not_not.mpr hd), hb, hy, hr]

theorem microStep_prB (hr : s.seq.rp = .prB) : microStep s = pollB s := by
  rw [microStep, if_neg (not_not.mpr hd), hb, hy, hr]

theorem microStep_start (hr : s.seq.rp = .idle) : microStep s = startPhase s := by
  rw [microStep, if_neg (not_not.mpr hd), hb, hy, hr]

end

/-! ### Runs of micro-operations -/

/-- Some run of micro-operations of a busy engine. -/
def MicroRun (s t : State) : Prop := ∃ n, BusyRun microStep n s t

theorem MicroRun.refl (s : State) : MicroRun s s := ⟨0, .nil s⟩

theorem MicroRun.trans {s t u : State} : MicroRun s t → MicroRun t u → MicroRun s u :=
  fun ⟨_, h⟩ ⟨_, h'⟩ => ⟨_, h.append h'⟩

/-- One micro-operation, and what follows it. -/
theorem MicroRun.next {s t u : State} (hb : s.flags.busy = true) (h : microStep s = t) (ht : MicroRun t u) :
    MicroRun s u :=
  MicroRun.trans ⟨1, .cons hb (h ▸ .nil _)⟩ ht

/-- The ticks of a delay and its event are the pseudocode's `Delay(n)`. -/
theorem record_elapsed {n : Nat} (h0 : n ≠ 0) (s : State) :
    record (.D n) (elapsed n (loadDelay n s)) = delay n s := by
  rw [delay, if_neg h0]
  refine State.eq_of_parts rfl rfl ?_ rfl rfl
  simp [elapsed, loadDelay]

theorem loadDelay_run {n : Nat} {s : State} (hb : s.flags.busy = true) (h0 : n ≠ 0) (hn : n < 1024) :
    MicroRun (loadDelay n s) (delayEnded (elapsed n (loadDelay n s))) := by
  have hd : (loadDelay n s).seq.dly.toNat = n := by simpa using Nat.mod_eq_of_lt hn
  have hrun := delay_run (s := loadDelay n s) hb (by omega)
  rw [hd] at hrun
  exact ⟨n, hrun⟩

/-- A counted delay outside the poll phases. -/
theorem MicroRun.delayed {n : Nat} {s t : State} (hb : s.flags.busy = true) (hl : delayLength s.seq = n) (h0 : n ≠ 0)
    (hn : n < 1024) (hp : s.seq.bs ≠ .idle ∨ (s.seq.rp ≠ .prA ∧ s.seq.rp ≠ .prB)) (ht : MicroRun (delay n s) t) :
    MicroRun (loadDelay n s) t := by
  have hlen : delayLength (elapsed n (loadDelay n s)).seq = n := hl
  have hrun := loadDelay_run (s := s) hb h0 hn
  rw [delayEnded_of_not_polling (s := elapsed n (loadDelay n s)) hp, hlen, record_elapsed h0] at hrun
  exact hrun.trans ht

/-! ### The slots (10_state.md R34) -/

/-- A write slot of SHREG[0], its shift and its count. -/
theorem writeSlot_run {s : State} (hb : s.flags.busy = true) :
    MicroRun (startWriteSlot s) (boundSlots id (writeNextBit s)) := by
  unfold startWriteSlot writeNextBit writeSlot
  split
  · refine .delayed hb rfl (by simp) (by simp) (.inl (by simp)) <| .next ?_ (microStep_w1Low ?_ ?_) <|
      .delayed ?_ ?_ (by simp) (by simp) (.inl ?_) <| .next ?_ (microStep_w1Rec ?_ ?_) (.refl _)
    all_goals simp [hb, delayLength]
  · refine .delayed hb rfl (by simp) (by simp) (.inl (by simp)) <| .next ?_ (microStep_w0Low ?_ ?_) <|
      .delayed ?_ ?_ (by simp) (by simp) (.inl ?_) <| .next ?_ (microStep_w0Rec ?_ ?_) (.refl _)
    all_goals simp [hb, delayLength]

/-- A read slot up to the end of its pad, its bit held. -/
def slotPadded (s : State) : State :=
  readSlotOpen s |> sampled |> setSlotBit (some (lineLevel (readSlotOpen s))) |> setBs .rPad |> delay Config.tRdpad

theorem slotPadded_closed {s : State} (h : s.seq.slotBit = none) :
    setBs .idle (setSlotBit none (slotPadded s)) = (readSlot s).2 := by
  rw [readSlot_state]
  refine State.eq_of_parts ?_ ?_ ?_ ?_ ?_ <;>
    simp [slotPadded, readSlotOpen, readSlotTrace, setBs, setSlotBit, driveLow, release, delay, record, sampled, h]

/-- A read slot up to the end of its pad. -/
theorem readSlot_run {s t : State} (hb : s.flags.busy = true) (ht : MicroRun (readSlotEnded (slotPadded s)) t) :
    MicroRun (startReadSlot s) t := by
  refine .delayed hb rfl (by simp) (by simp) (.inl (by simp)) <| .next ?_ (microStep_rLow ?_ ?_) <|
    .delayed ?_ ?_ (by simp) (by simp) (.inl ?_) <| .next ?_ (microStep_rWait ?_ ?_) <|
    .delayed ?_ ?_ (by simp) (by simp) (.inl ?_) <| .next ?_ (microStep_rPad ?_ ?_) ht
  all_goals simp [hb, delayLength]

/-- A read slot of a byte, with its shift and its count. -/
theorem readNext_run {s : State} (hb : s.flags.busy = true) (hy : s.seq.byt = .rd) (hs : s.seq.slotBit = none) :
    MicroRun (startReadSlot s) (boundSlots storeByte (readNextBit s)) := by
  refine readSlot_run hb ?_
  have hend : readSlotEnded (slotPadded s) = boundSlots storeByte (readNextBit s) := by
    have hy' : (slotPadded s).seq.byt = .rd := by simp [slotPadded, readSlotOpen, hy]
    have hbit : (slotPadded s).seq.slotBit = some (readSlot s).1 := by simp [slotPadded, readSlot]
    rw [readSlotEnded, hy', hbit, readNextBit, ← slotPadded_closed hs]
    rfl
  exact hend ▸ .refl _

/-- The read slot of ReadBit. -/
theorem readBit_run {s : State} (hb : s.flags.busy = true) (hy : s.seq.byt = .idle) (hs : s.seq.slotBit = none) :
    MicroRun (startReadSlot s) (advance (readBitSeq s)) := by
  refine readSlot_run hb ?_
  have hend : readSlotEnded (slotPadded s) = advance (readBitSeq s) := by
    have hy' : (slotPadded s).seq.byt = .idle := by simp [slotPadded, readSlotOpen, hy]
    have hbit : (slotPadded s).seq.slotBit = some (readSlot s).1 := by simp [slotPadded, readSlot]
    rw [readSlotEnded, hy', hbit, readBitSeq, ← slotPadded_closed hs]
    rfl
  exact hend ▸ .refl _

/-! ### The bytes (10_state.md R35) -/

/-- Between two slots of a byte. -/
structure BetweenSlots (y : ByState) (s : State) : Prop where
  busy : s.flags.busy = true
  bs : s.seq.bs = .idle
  byt : s.seq.byt = y
  dly : s.seq.dly = 0
  slotBit : s.seq.slotBit = none

/-- A loop of slots: when each turn runs, `n + 1` turns run up to the end of the byte. -/
theorem slots_run {y : ByState} {f turn : State → State}
    (hrun : ∀ s, BetweenSlots y s → MicroRun s (boundSlots f (turn s)))
    (hturn : ∀ s, BetweenSlots y s → BetweenSlots y (turn s) ∧ (turn s).seq.bitcnt = s.seq.bitcnt + 1) {n : Nat}
    {s : State} (hs : BetweenSlots y s) (hn : s.seq.bitcnt.toNat + (n + 1) = 8) :
    MicroRun s (advance (f (setByt .idle (turn^[n + 1] s)))) := by
  induction n generalizing s with
  | zero =>
    obtain ⟨-, hc⟩ := hturn s hs
    have h8 : (turn s).seq.bitcnt = 8 := by rw [hc]; bv_omega
    simpa [boundSlots, h8] using hrun s hs
  | succ n ih =>
    obtain ⟨ht, hc⟩ := hturn s hs
    have hc' : (turn s).seq.bitcnt.toNat + (n + 1) = 8 := by rw [hc]; bv_omega
    have h8 : (turn s).seq.bitcnt ≠ 8 := fun h => by simp [h] at hc'
    have hfirst := hrun s hs
    rw [boundSlots, if_neg h8] at hfirst
    exact hfirst.trans (ih ht hc')

theorem writeBits_eq_iterate (n : Nat) (s : State) : writeBits n s = writeNextBit^[n] s := by
  induction n generalizing s with
  | zero => rfl
  | succ n ih => exact ih _

theorem readBits_eq_iterate (n : Nat) (s : State) : readBits n s = readNextBit^[n] s := by
  induction n generalizing s with
  | zero => rfl
  | succ n ih => exact ih _

theorem writeByte_run {s : State} (v : Byte) (hb : s.flags.busy = true) (hs : s.seq.bs = .idle) (hd : s.seq.dly = 0)
    (hslot : s.seq.slotBit = none) : MicroRun (startWriteByte v s) (advance (writeByteSeq v s)) := by
  have hrun := slots_run (y := .wr) (f := id) (turn := writeNextBit) (n := 7) (s := startWriteByte v s)
    (fun s hs => .next hs.busy (microStep_wr hs.dly hs.bs hs.byt) (writeSlot_run hs.busy))
    (fun s hs => ⟨⟨?_, ?_, ?_, ?_, ?_⟩, ?_⟩) ⟨hb, hs, rfl, hd, hslot⟩ (by simp [startWriteByte])
  · rwa [← writeBits_eq_iterate] at hrun
  all_goals simp [writeNextBit, writeSlot_eq, hs.busy, hs.byt, hs.slotBit]

theorem readByte_run {s : State} (hb : s.flags.busy = true) (hs : s.seq.bs = .idle) (hd : s.seq.dly = 0)
    (hslot : s.seq.slotBit = none) : MicroRun (startReadByte s) (advance (storeByte (readByteSeq s))) := by
  have hrun := slots_run (y := .rd) (f := storeByte) (turn := readNextBit) (n := 7) (s := startReadByte s)
    (fun s hs => .next hs.busy (microStep_rd hs.dly hs.bs hs.byt) (readNext_run hs.busy hs.byt hs.slotBit))
    (fun s hs => ⟨⟨?_, ?_, ?_, ?_, ?_⟩, ?_⟩) ⟨hb, hs, rfl, hd, hslot⟩ (by simp [startReadByte])
  · rwa [← readBits_eq_iterate] at hrun
  all_goals simp [readNextBit_eq, hs.busy, hs.byt, hs.slotBit]

/-! ### The reset pulse and the poll (10_state.md R33) -/

/-- The reset pulse, and the poll after it unless only the pulse is wanted. -/
theorem pulse_run {s : State} (hb : s.flags.busy = true) (hs : s.seq.bs = .idle) (hy : s.seq.byt = .idle) :
    MicroRun (startPulse s) (if s.seq.opr = 1 then advance (resetSeq s) else enterPhaseA (resetSeq s)) := by
  refine .delayed hb ?_ (by simp) (by simp) (.inr ?_) <| .next ?_ (microStep_rstLow ?_ ?_ ?_ ?_) <|
    .delayed ?_ ?_ (by simp) (by simp) (.inr ?_) <| .next ?_ (microStep_rstRec ?_ ?_ ?_ ?_) (.refl _)
  all_goals simp [hb, hs, hy, delayLength]

/-- Between two polls of phase `p`. -/
structure BetweenPolls (p : RpState) (s : State) : Prop where
  busy : s.flags.busy = true
  bs : s.seq.bs = .idle
  byt : s.seq.byt = .idle
  dly : s.seq.dly = 0
  rp : s.seq.rp = p

/-- The delay after a poll, the poll's count, and the bound. -/
theorem polled_run {p : RpState} {s : State} {bound : Nat} (hs : BetweenPolls p s)
    (hp : (p = .prA ∧ bound = 200) ∨ (p = .prB ∧ bound = 240)) :
    MicroRun (s |> sampled |> loadDelay Config.tPoll)
      (boundPolls bound (s |> sampled |> delay Config.tPoll |> countPoll)) := by
  have hlen : delayLength (elapsed 1 (loadDelay 1 (sampled s))).seq = 1 := by
    obtain ⟨rfl, -⟩ | ⟨rfl, -⟩ := hp <;> simp [delayLength, elapsed, hs.bs, hs.rp]
  have hrun := loadDelay_run (n := 1) (s := sampled s) hs.busy (by simp) (by simp)
  rwa [delayEnded_of_polling (s := elapsed 1 (loadDelay 1 (sampled s))) hs.bs (hs.rp ▸ hp), hlen,
    record_elapsed (by simp)] at hrun

theorem BetweenPolls.counted {p : RpState} {s : State} (hs : BetweenPolls p s) :
    BetweenPolls p (s |> sampled |> delay Config.tPoll |> countPoll) := by
  constructor <;> simp [hs.busy, hs.bs, hs.byt, hs.rp]

/-- A poll that does not end its phase: the delay, then the timeout or the loop with one poll less. -/
theorem notSeen_run {p : RpState} {bound n : Nat} {loop : Nat → State → State} {s : State} (hs : BetweenPolls p s)
    (hp : (p = .prA ∧ bound = 200) ∨ (p = .prB ∧ bound = 240)) (hn : s.seq.poll.toNat + (n + 1) = bound)
    (h0 : ∀ u, loop 0 u = presenceTimeout u)
    (ih : ∀ m, m < n → ∀ u, BetweenPolls p u → u.seq.poll.toNat + (m + 1) = bound →
      MicroRun u (advance (loop (m + 1) u))) :
    MicroRun (s |> sampled |> loadDelay Config.tPoll)
      (advance (loop n (s |> sampled |> delay Config.tPoll |> countPoll))) := by
  have hrun := polled_run hs hp
  have hcount : (s |> sampled |> delay Config.tPoll |> countPoll).seq.poll.toNat = s.seq.poll.toNat + 1 := by
    rw [countPoll_eq, setPoll_poll, delay_seq, if_neg (by simp), sampled_seq]
    obtain ⟨-, rfl⟩ | ⟨-, rfl⟩ := hp <;> bv_omega
  cases n with
  | zero =>
    rw [boundPolls_at (hcount.trans hn)] at hrun
    exact h0 _ ▸ hrun
  | succ n =>
    rw [boundPolls_below (by omega)] at hrun
    exact hrun.trans (ih n (Nat.lt_succ_self n) _ hs.counted (by omega))

/-- Phase B with `n + 1` polls left. -/
theorem phaseB_run {n : Nat} {s : State} (hs : BetweenPolls .prB s) (hn : s.seq.poll.toNat + (n + 1) = 240) :
    MicroRun s (advance (phaseB (n + 1) s)) := by
  induction n using Nat.strong_induction_on generalizing s with
  | _ n ih =>
    refine .next hs.busy (microStep_prB hs.dly hs.bs hs.byt hs.rp) ?_
    unfold pollB phaseB
    split
    · exact .refl _
    · exact notSeen_run hs (.inr ⟨rfl, rfl⟩) hn (fun _ => rfl) fun m hm u hu => ih m hm hu

/-- Phase A with `n + 1` polls left. -/
theorem phaseA_run {n : Nat} {s : State} (hs : BetweenPolls .prA s) (hn : s.seq.poll.toNat + (n + 1) = 200) :
    MicroRun s (advance (phaseA (n + 1) s)) := by
  induction n using Nat.strong_induction_on generalizing s with
  | _ n ih =>
    refine .next hs.busy (microStep_prA hs.dly hs.bs hs.byt hs.rp) ?_
    unfold pollA phaseA
    split
    · exact notSeen_run hs (.inl ⟨rfl, rfl⟩) hn (fun _ => rfl) fun m hm u hu => ih m hm hu
    · exact phaseB_run (n := 239) ⟨hs.busy, hs.bs, hs.byt, hs.dly, rfl⟩ rfl

theorem presence_run {s : State} (hb : s.flags.busy = true) (hs : s.seq.bs = .idle) (hy : s.seq.byt = .idle)
    (hd : s.seq.dly = 0) : MicroRun (enterPhaseA s) (advance (presenceSeq s)) :=
  phaseA_run (n := 199) ⟨hb, hs, hy, hd, rfl⟩ rfl

/-- The reset pulse followed by the poll. -/
theorem resetPresence_run {s : State} (hb : s.flags.busy = true) (hs : s.seq.bs = .idle) (hy : s.seq.byt = .idle)
    (ho : s.seq.opr ≠ 1) : MicroRun (startPulse s) (advance (presenceSeq (resetSeq s))) := by
  have hpulse := pulse_run hb hs hy
  rw [if_neg ho] at hpulse
  exact hpulse.trans (presence_run (by simp [resetSeq_eq, hb]) (by simp [resetSeq_eq, hs]) (by simp [resetSeq_eq, hy])
    (by simp [resetSeq_eq]))

/-! ### A state of CS -/

/-- A primitive operation. -/
theorem primitive_microRun {s : State} (h : Ready s) (hb : s.flags.busy = true) (hc : s.seq.cs = .prim) :
    MicroRun (startPrimitive s) (advance (primitiveSeq s)) := by
  obtain ⟨-, hs, hy, hd⟩ := atPhaseStart_iff.mp h.start
  unfold startPrimitive primitiveSeq
  split
  · next ho =>
    have hpulse := pulse_run hb hs hy
    rwa [if_pos (BitVec.eq_of_toNat_eq ho)] at hpulse
  · exact presence_run hb hs hy hd
  · exact readBit_run hb hy h.slotBit
  · have hrun := readByte_run hb hs hd h.slotBit
    simpa only [storeByte, readByteSeq_cs, hc] using hrun
  · exact writeByte_run _ hb hs hd h.slotBit
  · exact .refl _

/-- A byte read into the register that CS's state names. -/
theorem readInto_run {s : State} {f : State → State} (h : Ready s) (hb : s.flags.busy = true)
    (hf : storeByte (readByteSeq s) = f (readByteSeq s)) :
    MicroRun (startReadByte s) (advance (f (readByteSeq s))) := by
  obtain ⟨-, hs, -, hd⟩ := atPhaseStart_iff.mp h.start
  exact hf ▸ readByte_run hb hs hd h.slotBit

/-- The micro-operation machine runs a state of CS as the phase view does. -/
theorem phase_microRun {s : State} (h : Ready s) (hb : s.flags.busy = true) : MicroRun s (phaseStep s) := by
  obtain ⟨hr, hs, hy, hd⟩ := atPhaseStart_iff.mp h.start
  have hp := h.path
  refine .next hb (microStep_start hd hs hy hr) ?_
  rw [phaseStep, if_neg (h.cs hb), startPhase, phaseSeq]
  cases hc : s.seq.cs with
  | idle => exact absurd hc (h.cs hb)
  | rp1 =>
    simp only [pathLegal, hc] at hp
    exact resetPresence_run hb hs hy (by obtain ho | ho := hp <;> simp [ho])
  | rp2 =>
    simp only [pathLegal, hc] at hp
    exact resetPresence_run hb hs hy (by simp [hp])
  | skip1 => exact writeByte_run _ hb hs hd h.slotBit
  | skip2 => exact writeByte_run _ hb hs hd h.slotBit
  | conv => exact writeByte_run _ hb hs hd h.slotBit
  | rdsp => exact writeByte_run _ hb hs hd h.slotBit
  | rdlo => exact readInto_run h hb (by simp only [storeByte, readByteSeq_cs, hc])
  | rdhi => exact readInto_run h hb (by simp only [storeByte, readByteSeq_cs, hc])
  | dec => exact .refl _
  | prim => exact primitive_microRun h hb hc
  | init =>
    simp only [pathLegal, hc] at hp
    exact resetPresence_run (s := release s) hb hs hy (by simp [hp])

/-- A run of states of CS is a run of micro-operations. -/
theorem phases_microRun {n : Nat} {s t : State} (h : BusyRun phaseStep n s t) (hs : Ready s) : MicroRun s t := by
  induction h with
  | nil s => exact .refl s
  | cons hb _ ih => exact (phase_microRun hs hb).trans (ih (hs.after_phaseStep hb))

/-- Settles O16: the micro-operations run the states of CS, and those the operation. -/
theorem microOperationsRefineTheOperation : Obligations.MicroOperationsRefineTheOperation := by
  intro s t w hs he
  obtain ⟨u, hu, hphases⟩ := exec_eq_phases w (watched .byMicroOperation [] s)
  obtain rfl : u = t := Host.Outcome.next.inj (hu.symm.trans he)
  obtain ⟨hstep, hquiet⟩ := accept_presented (v := .byMicroOperation) (by simp) w hs.1
  obtain ⟨n, hrun⟩ := phases_microRun hphases (ready_accept (s := watched .byMicroOperation [] s) hs _ _)
  obtain ⟨hend, hbusy⟩ := micro_steps hrun hquiet
  refine ⟨n, (steps_succ hstep).trans hend, fun k hk => ?_⟩
  rw [steps_succ hstep]
  exact hbusy k hk

end Sys2Proof
end

section
/-! PROOFS. The bits of a received byte, and several ReadBit operations one after the other (20_memory.md R64). -/

namespace Sys2Proof

open Sys2Proof.Machine

/-- Bit k of a received byte is the k-th of its eight answers (43_byte_transactions.md R170, bit 0 first). -/
theorem receivedByte_getLsbD (e : Env) (k0 : Nat) {k : Nat} (hk : k < 8) :
    (receivedByte e k0).getLsbD k = e.answer (k0 + k) := by
  rw [receivedByte, ← shiftIn_eight (fun i => e.answer (k0 + i)) 0]
  simp only [shiftIn_getLsbD]
  interval_cases k <;> simp

theorem zextBit_eq_ite (b : Bool) : zextBit b = if b = true then 1 else 0 := by cases b <;> decide

/-- The first of several instructions, when it does not stop the run. -/
theorem execAll_cons_of_next {i : Instr} {s t : State} (is : List Instr) (h : exec i s = .next t) :
    execAll (i :: is) s = execAll is t := by
  rw [execAll, h]

/-- The last of `n + 1` ReadBit operations returns the answer `n`; each takes one answer and 64 microseconds. -/
theorem execAll_readBits (arg : Byte) (n : Nat) (s : State) :
    ∃ u, execAll (List.replicate (n + 1) (.opReadBit arg)) s = .next u ∧
      u.regs = { s.regs with rdata := zextBit (s.env.answer n) } ∧ u.obs.now = s.obs.now + 64 * (n + 1) := by
  induction n generalizing s with
  | zero => exact ⟨_, execAll_cons_of_next [] (exec_opReadBit arg s), rfl, rfl⟩
  | succ n ih =>
    rw [List.replicate_succ, execAll_cons_of_next _ (exec_opReadBit arg s)]
    obtain ⟨u, hu, hregs, hnow⟩ := ih _
    refine ⟨u, hu, ?_, ?_⟩
    · rw [hregs, Env.answer_consume, Nat.add_comm 1 n]
    · exact hnow.trans (show s.obs.now + 64 + 64 * (n + 1) = _ by omega)

/-- Settles O43: bit k of the byte and the result of the (k+1)-th ReadBit are the same answer of the line. -/
theorem eightReadBitsSeeTheByte : Obligations.EightReadBitsSeeTheByte := by
  intro arg s k hk
  obtain ⟨u, hu, hregs, hnow⟩ := execAll_readBits arg k s
  refine ⟨_, u, exec_opReadByte arg s, hu, ?_, by rw [hregs], hnow⟩
  rw [hregs, receivedByte_getLsbD _ _ hk, zextBit_eq_ite, Nat.zero_add]

end Sys2Proof
end

section
/-! PROOFS. The encoding: every instruction decodes back, and every command word and every assembler line is one
operation (30_encoding.md). -/

namespace Sys2Proof

open Sys2Proof.Machine

/-! ### The layouts of a code word: its bytes, and its number in the opcode table -/

theorem setWidth_opOf_lt (op : OpCode) : op.setWidth 8 < (8 : Byte) := by revert op; decide

theorem extractLsb'_setWidth_opCode (op : OpCode) : (op.setWidth 8).extractLsb' 0 3 = op := by revert op; decide

/-- The bytes of a code word decode as the code word does (log 5). -/
theorem decodeBytes_codeBytes (c : CodeWord) : decodeBytes (codeBytes c) = decode c := by
  cases c with
  | cmd11 w =>
    have hword : opOf w ++ argOf w = w := commandWord_fields w
    rw [codeBytes, decodeBytes, if_pos (setWidth_opOf_lt _), extractLsb'_setWidth_opCode, hword]
  | wire8 b => rfl

theorem numberFits_codeNumber (c : CodeWord) : numberFits (codeNumber c).1 (codeNumber c).2 = true := by
  cases c with
  | cmd11 w => simp [codeNumber, numberFits, w.isLt]
  | wire8 b => simp [codeNumber, numberFits, b.isLt]

/-- The opcode table's bytes of a code word's number are the code word's bytes. -/
theorem tableBytes_codeNumber (c : CodeWord) : tableBytes (codeNumber c).1 (codeNumber c).2 = codeBytes c := by
  cases c with
  | cmd11 w =>
    have hlo : BitVec.ofNat 8 w.toNat = argOf w := by
      apply BitVec.eq_of_toNat_eq
      simp [argOf]
    have hhi : BitVec.ofNat 8 (w.toNat / 256) = (opOf w).setWidth 8 := by
      apply BitVec.eq_of_toNat_eq
      simp [opOf, Nat.shiftRight_eq_div_pow]
      omega
    simp [tableBytes, codeNumber, codeBytes, hlo, hhi]
  | wire8 b => simp [tableBytes, codeNumber, codeBytes]

theorem decodeTableWord_codeNumber (c : CodeWord) :
    decodeTableWord (codeNumber c).1 (codeNumber c).2 = (decode c).toOption := by
  rw [decodeTableWord, if_pos (numberFits_codeNumber c), tableBytes_codeNumber, decodeBytes_codeBytes]

/-! ### Decoding and encoding -/

theorem decode_encode (i : Instr) : decode (encode i) = .ok i := by
  cases h : encode i with
  | cmd11 w => rw [decode, decodeCommand_of_encode h]
  | wire8 b => obtain rfl | rfl | rfl := wire_of_encode h <;> cases h <;> rfl

theorem encode_decodeCommand (w : CommandWord) : encode (decodeCommand w) = .cmd11 w := by
  have hw := commandWord_fields w
  obtain ⟨ho, hd⟩ | ⟨ho, hd⟩ | ⟨ho, hd⟩ | ⟨ho, hd⟩ | ⟨ho, hd⟩ | ⟨ho, hd⟩ | ⟨ho, hd⟩ | ⟨ho, hd⟩ :=
    decodeCommand_cases w <;> rw [hd, encode, ← ho, hw]

/-- Settles O1: an instruction's code word decodes to it, and both other layouts decode as the code word does. -/
theorem encodedInstructionDecodesBack : Obligations.EncodedInstructionDecodesBack := fun i =>
  ⟨(decodeBytes_codeBytes _).trans (decode_encode i), decode_encode i, by
    rw [decodeTableWord_codeNumber, decode_encode]
    rfl⟩

/-- Exactly one row of the opcode table covers an instruction's word: its own. -/
theorem matchesRow (i : Instr) : Laws.MatchesRow.Statement i := by
  cases i with
  | opInitialize a => exact Laws.MatchesRow.opInitialize a
  | opReset a => exact Laws.MatchesRow.opReset a
  | opCheckPresence a => exact Laws.MatchesRow.opCheckPresence a
  | opReadBit a => exact Laws.MatchesRow.opReadBit a
  | opReadByte a => exact Laws.MatchesRow.opReadByte a
  | opWriteByte a => exact Laws.MatchesRow.opWriteByte a
  | opStartConversion a => exact Laws.MatchesRow.opStartConversion a
  | opGetTemperature a => exact Laws.MatchesRow.opGetTemperature a
  | wireSkipRom => exact Laws.MatchesRow.wireSkipRom
  | wireConvertT => exact Laws.MatchesRow.wireConvertT
  | wireReadScratchpad => exact Laws.MatchesRow.wireReadScratchpad

/-- Settles O2: the operation a word decodes to encodes to the word, so the operation's row is the word's. -/
theorem commandWordIsExactlyOneOperation : Obligations.CommandWordIsExactlyOneOperation := by
  intro w
  have henc := encode_decodeCommand w
  have hrow := matchesRow (decodeCommand w)
  rw [Laws.MatchesRow.Statement, henc] at hrow
  exact ⟨decodeCommand w, rfl, henc, hrow⟩

/-- Settles O3, by the three tests of the decoder in their order. -/
theorem wireByteIsOneOfThree : Obligations.WireByteIsOneOfThree := by
  intro b i
  rw [decode, decodeWire]
  split_ifs with hskip hconv hread
  · simp [hskip, eq_comm]
  · simp [hconv, eq_comm]
  · simp [hread, eq_comm]
  · simp_all

/-- Settles O4, by running the decoder. -/
theorem sampleWordsDecode : Obligations.SampleWordsDecode := by
  unfold Obligations.SampleWordsDecode
  decide

/-! ### The assembler (30_encoding.md R84) -/

/-- The lines without an operand, each with its command word. -/
def plainLines : List (String × CommandWord) :=
  [("Initialize", 0x000), ("Reset", 0x100), ("CheckPresence", 0x200), ("ReadBit", 0x300), ("ReadByte", 0x400),
    ("StartConversion", 0x600), ("GetTemperature", 0x700)]

/-- A line that assembles is WriteByte with an operand, or one of the seven others without. -/
theorem assemble_eq_some {m : String} {o : Option Byte} {w : CommandWord} (h : assemble m o = some w) :
    (∃ b, o = some b ∧ m = "WriteByte" ∧ w = commandWord 5 b) ∨ (o = none ∧ (m, w) ∈ plainLines) := by
  cases o with
  | some b =>
    simp only [assemble, Option.ite_none_right_eq_some, Option.some.injEq] at h
    exact .inl ⟨b, rfl, h.1, h.2.symm⟩
  | none =>
    refine .inr ⟨rfl, ?_⟩
    simp only [assemble] at h
    split_ifs at h <;> simp_all [plainLines]

theorem decodeCommand_plainLine : ∀ p ∈ plainLines,
    (decodeCommand p.2).mnemonic = p.1 ∧ (decodeCommand p.2).assembled = true ∧ p.1 ≠ "WriteByte" ∧
      argOf p.2 = 0x00 := by decide

/-- Every command that an assembler can emit has a line. -/
theorem assemble_mnemonic {i : Instr} (h : i.assembled = true) :
    ∃ o w, assemble i.mnemonic o = some w ∧ encode i = .cmd11 w := by
  cases i with
  | opInitialize a => obtain rfl := eq_of_beq h; exact ⟨none, 0x000, by decide, rfl⟩
  | opReset a => obtain rfl := eq_of_beq h; exact ⟨none, 0x100, by decide, rfl⟩
  | opCheckPresence a => obtain rfl := eq_of_beq h; exact ⟨none, 0x200, by decide, rfl⟩
  | opReadBit a => obtain rfl := eq_of_beq h; exact ⟨none, 0x300, by decide, rfl⟩
  | opReadByte a => obtain rfl := eq_of_beq h; exact ⟨none, 0x400, by decide, rfl⟩
  | opWriteByte b => exact ⟨some b, commandWord 5 b, by rw [Instr.mnemonic, assemble, if_pos rfl], rfl⟩
  | opStartConversion a => obtain rfl := eq_of_beq h; exact ⟨none, 0x600, by decide, rfl⟩
  | opGetTemperature a => obtain rfl := eq_of_beq h; exact ⟨none, 0x700, by decide, rfl⟩
  | wireSkipRom => exact absurd h (by decide)
  | wireConvertT => exact absurd h (by decide)
  | wireReadScratchpad => exact absurd h (by decide)

/-- Settles O6: the seven lines without an operand are decoded one by one, WriteByte's for every byte. -/
theorem assembledLineIsItsCommand : Obligations.AssembledLineIsItsCommand := by
  refine ⟨fun m o w h => ?_, fun _ => assemble_mnemonic⟩
  obtain ⟨b, rfl, rfl, rfl⟩ | ⟨rfl, hmem⟩ := assemble_eq_some h
  · rw [decodeCommand_of_encode (i := .opWriteByte b) rfl]
    exact ⟨rfl, rfl, by simp, argOf_commandWord 5 b⟩
  · obtain ⟨hm, ha, hne, harg⟩ := decodeCommand_plainLine (m, w) hmem
    exact ⟨hm, ha, by simpa using hne, harg⟩

end Sys2Proof
end

section
/-! PROOFS. Commands as they run: the operand matters to WriteByte alone, the wire commands, and host programs. -/

namespace Sys2Proof

open Sys2Proof.Machine

/-! ### The operand (30_encoding.md R82) -/

/-- A run of `n` steps of `f` ends in the `n`-th iterate of `f`. -/
theorem Machine.BusyRun.eq_iterate {f : State → State} {n : Nat} {s t : State} (h : BusyRun f n s t) : t = f^[n] s := by
  induction h with
  | nil s => rfl
  | cons _ _ ih => exact ih

/-- Once accepted, a command runs by its operation code alone: its word and the state before acceptance matter no
more. -/
theorem exec_eq_of_accept_eq {w w' : CommandWord} {s s' : State} (ho : opOf w = opOf w')
    (ha : accept (opOf w) (argOf w) s = accept (opOf w') (argOf w') s') :
    exec (decodeCommand w) s = exec (decodeCommand w') s' := by
  obtain ⟨t, ht, hrun⟩ := exec_eq_phases w s
  obtain ⟨t', ht', hrun'⟩ := exec_eq_phases w' s'
  rw [ht, ht', hrun.eq_iterate, hrun'.eq_iterate, ha, ho]

theorem loadOperand_writeByte (arg v : Byte) : loadOperand 5 arg v = arg := if_pos rfl

theorem loadOperand_of_ne {op : OpCode} (h : op ≠ 5) (arg v : Byte) : loadOperand op arg v = v := if_neg h

theorem accept_ignores_arg {op : OpCode} (h : op ≠ 5) (a a' : Byte) (s : State) : accept op a s = accept op a' s := by
  rw [accept, accept, loadOperand_of_ne h, loadOperand_of_ne h]

/-- Settles O5: acceptance is the only reader of ARG, and it reads it for code 5 alone. -/
theorem argumentIsIgnoredButByWriteByte : Obligations.ArgumentIsIgnoredButByWriteByte := by
  refine ⟨fun w w' s ho h5 => ?_, fun w s ho => ⟨?_, ?_⟩, fun w s h5 => loadOperand_of_ne h5 _ _⟩
  · exact exec_eq_of_accept_eq ho (ho ▸ accept_ignores_arg h5 _ _ s)
  · have hw : encode (.opWriteByte (argOf w)) = .cmd11 w := by rw [encode, ← ho, commandWord_fields]
    exact decodeCommand_of_encode hw
  · rw [ho]
    exact loadOperand_writeByte _ s.regs.shreg

/-! ### The wire commands (30_encoding.md R91) -/

/-- Settles O32: each of the three is `WriteByteSeq` of its byte. -/
theorem wireCommandsSendTheirByte : Obligations.WireCommandsSendTheirByte := by
  intro i b s h
  have hi : exec i s = .next (writeByteSeq b s) := by
    obtain ⟨rfl, rfl⟩ | ⟨rfl, rfl⟩ | ⟨rfl, rfl⟩ := h
    · exact exec_wireSkipRom s
    · exact exec_wireConvertT s
    · exact exec_wireReadScratchpad s
  refine ⟨_, _, hi, exec_opWriteByte b s, ?_⟩
  simp [writeByteSeq_eq, trace_eq]

/-! ### Host programs (30_encoding.md R84) -/

/-- `s` with `rest` for the host to present next and the port `done` at `d`. -/
def offered (rest : List HostInput) (d : Bool) (s : State) : State :=
  { s with env := { s.env with host := rest }, obs := { s.obs with done := d } }

/-- A command neither reads what the host presents next nor the port `done`, which it raises. -/
theorem exec_offered (w : CommandWord) (s : State) : ∃ u, exec (decodeCommand w) s = .next u ∧
    u.flags.busy = false ∧ u.env.view = s.env.view ∧ u.env.host = s.env.host ∧
    ∀ rest d, exec (decodeCommand w) (offered rest d s) = .next (offered rest true u) := by
  obtain ⟨-, hd⟩ | ⟨-, hd⟩ | ⟨-, hd⟩ | ⟨-, hd⟩ | ⟨-, hd⟩ | ⟨-, hd⟩ | ⟨-, hd⟩ | ⟨-, hd⟩ := decodeCommand_cases w <;>
    rw [hd]
  · exact ⟨_, exec_opInitialize _ s, rfl, rfl, rfl, fun _ _ => exec_opInitialize _ _⟩
  · exact ⟨_, exec_opReset _ s, rfl, rfl, rfl, fun _ _ => exec_opReset _ _⟩
  · exact ⟨_, exec_opCheckPresence _ s, rfl, rfl, rfl, fun _ _ => exec_opCheckPresence _ _⟩
  · exact ⟨_, exec_opReadBit _ s, rfl, rfl, rfl, fun _ _ => exec_opReadBit _ _⟩
  · exact ⟨_, exec_opReadByte _ s, rfl, rfl, rfl, fun _ _ => exec_opReadByte _ _⟩
  · exact ⟨_, exec_opWriteByte _ s, rfl, rfl, rfl, fun _ _ => exec_opWriteByte _ _⟩
  · exact ⟨_, exec_opStartConversion _ s, rfl, rfl, rfl, fun _ _ => exec_opStartConversion _ _⟩
  · exact ⟨_, exec_opGetTemperature _ s _ rfl, rfl, rfl, rfl, fun _ _ => exec_opGetTemperature _ _ _ rfl⟩

/-- An idle engine watched by operation, before a host that has nothing more to present. -/
structure Awaiting (s : State) : Prop where
  busy : s.flags.busy = false
  view : s.env.view = .byOperation
  host : s.env.host = []

/-- A presented command runs whole in the step. -/
theorem Awaiting.step_command {s : State} (h : Awaiting s) (w : CommandWord) : ∃ u,
    exec (decodeCommand w) s = .next u ∧ Awaiting u ∧
    ∀ rest d, step (offered (presenting w :: rest) d s) = .next (offered rest true u) := by
  obtain ⟨u, hu, hb, hv, hh, hrun⟩ := exec_offered w s
  refine ⟨u, hu, ⟨hb, hv.trans h.view, hh.trans h.host⟩, fun rest d => ?_⟩
  have hw : (presenting w).word = w := commandWord_fields w
  have hstep : step (offered (presenting w :: rest) d s) =
      exec (decodeCommand (presenting w).word) (offered rest false s) :=
    stepRunsTheFetchedInstruction.1 _ _ rfl h.busy rfl h.view rfl
  rw [hstep, hw, hrun]

/-- The steps in which a host presents one line do what the line does. -/
theorem Awaiting.steps_line {s : State} (h : Awaiting s) (l : HostLine) : ∃ u, runLine l s = .next u ∧ Awaiting u ∧
    ∀ rest d n, ∃ d', steps (n + l.inputs.length) (offered (l.inputs ++ rest) d s) = steps n (offered rest d' u) := by
  cases l with
  | command w =>
    obtain ⟨u, hu, ha, hstep⟩ := h.step_command w
    refine ⟨u, hu, ha, fun rest d n => ⟨true, steps_succ (hstep rest d)⟩⟩
  | resetPresence =>
    obtain ⟨u, hu, ha, hstep⟩ := h.step_command 0x100
    obtain ⟨u', hu', ha', hstep'⟩ := ha.step_command 0x200
    refine ⟨u', ?_, ha', fun rest d n => ⟨true, ?_⟩⟩
    · exact (execAll_cons_of_next _ hu).trans (execAll_cons_of_next _ hu')
    · exact (steps_succ (hstep _ d)).trans (steps_succ (hstep' rest true))
  | wait m =>
    refine ⟨idleFor m s, rfl, ⟨h.busy, h.view, h.host⟩, fun rest d n => ⟨false, steps_succ ?_⟩⟩
    exact step_idle (s := offered ({ gap := m } :: rest) d s) rfl h.busy

/-- The steps in which a host presents a program do what its lines do. -/
theorem Awaiting.steps_lines (lines : List HostLine) {s : State} (h : Awaiting s) (d : Bool) : ∃ u d',
    runLines lines s = .next u ∧ u.env.host = [] ∧
    steps (lines.flatMap HostLine.inputs).length (offered (lines.flatMap HostLine.inputs) d s) =
      .next (offered [] d' u) := by
  induction lines generalizing s d with
  | nil => exact ⟨s, d, rfl, h.host, rfl⟩
  | cons l ls ih =>
    obtain ⟨u, hu, ha, hsteps⟩ := h.steps_line l
    obtain ⟨d₁, h₁⟩ := hsteps (ls.flatMap HostLine.inputs) d (ls.flatMap HostLine.inputs).length
    obtain ⟨v, d₂, hv, hh, hrun⟩ := ih ha d₁
    refine ⟨v, d₂, by rw [runLines, hu]; exact hv, hh, ?_⟩
    rw [List.flatMap_cons, List.length_append, Nat.add_comm, h₁, hrun]

/-- Settles O21, by induction on the lines: the two runs differ only in what the host has left to present and in the
port `done`. -/
theorem hostProgramRunsLineByLine : Obligations.HostProgramRunsLineByLine := by
  intro s lines hs
  have ha : Awaiting (watched .byOperation [] s) := ⟨hs.1, rfl, rfl⟩
  obtain ⟨u, d, hu, hh, hsteps⟩ := ha.steps_lines lines s.obs.done
  refine ⟨offered [] d u, u, hsteps, hu, rfl, rfl, rfl, ?_, rfl, rfl⟩
  simp [offered, ← hh]

end Sys2Proof
end

section
/-! PROOFS. The reset pulse and presence detection: Reset, CheckPresence and Initialize for every answer stream, and
the poll on streams that are written out (41_reset_presence.md). -/

namespace Sys2Proof

open Sys2Proof.Machine

/-! ### The words of an operation (30_encoding.md R81) -/

/-- The bits under a row's mask are the operation code. -/
theorem opOf_of_mask {w : CommandWord} {op : OpCode} (h : w &&& 0x700 = commandWord op 0) : opOf w = op := by
  have hmask : opOf (w &&& 0x700) = opOf w &&& 7 := BitVec.extractLsb'_and
  rw [← opOf_commandWord op 0, ← h, hmask]
  exact (BitVec.and_allOnes (x := opOf w)).symm

/-- Every word with an operation's code under the mask is that operation, of the word's own argument. -/
theorem decode_of_mask {i : Byte → Instr} {op : OpCode} (hi : ∀ a, encode (i a) = .cmd11 (commandWord op a))
    {w : CommandWord} (h : w &&& 0x700 = commandWord op 0) : decode (.cmd11 w) = .ok (i (argOf w)) := by
  rw [← decode_encode, hi, ← opOf_of_mask h, commandWord_fields]

/-! ### The rows of the poll's table (41_reset_presence.md R136) -/

section
variable {e : Env} {k a b : Nat}

/-- Phase A times out iff all its 200 answers are high. -/
theorem firstLow_eq_none : firstLow e k = none ↔ ∀ i < 200, e.answer (k + i) = true := by
  simp [firstLow]

theorem firstLow_eq_some :
    firstLow e k = some a ↔ e.answer (k + a) = false ∧ a < 200 ∧ ∀ i < a, e.answer (k + i) = true := by
  simp [firstLow]

/-- Phase B times out iff all its 240 answers are low. -/
theorem firstHigh_eq_none : firstHigh e k = none ↔ ∀ j < 240, e.answer (k + j) = false := by
  simp [firstHigh]

theorem firstHigh_eq_some :
    firstHigh e k = some b ↔ e.answer (k + b) = true ∧ b < 240 ∧ ∀ j < b, e.answer (k + j) = false := by
  simp [firstHigh]

/-- Timeout of kind A: the line never goes low. -/
theorem pollOutcome_timeoutA (h : firstLow e k = none) :
    pollOutcome e k = { absent := true, trace := pollsTrace true 200, time := 200, answers := 200 } := by
  simp only [pollOutcome, h]

/-- A presence pulse. -/
theorem pollOutcome_found (hl : firstLow e k = some a) (hh : firstHigh e (k + a + 1) = some b) :
    pollOutcome e k = {
      absent := false
      trace := pollsTrace true a ++ [.S false] ++ pollsTrace false b ++ [.S true]
      time := a + b
      answers := a + b + 2 } := by
  simp only [pollOutcome, hl, hh]

/-- Timeout of kind B: the line goes low and never high again. -/
theorem pollOutcome_timeoutB (hl : firstLow e k = some a) (hh : firstHigh e (k + a + 1) = none) :
    pollOutcome e k = {
      absent := true
      trace := pollsTrace true a ++ [.S false] ++ pollsTrace false 240
      time := a + 240
      answers := a + 241 } := by
  simp only [pollOutcome, hl, hh]

end

/-- Phase A takes at most 199 delays before the first low answer, and phase B at most 240 after it (R139). -/
theorem pollOutcome_bounds (e : Env) (k : Nat) : (pollOutcome e k).answers ≤ 440 ∧ (pollOutcome e k).time ≤ 439 := by
  cases hl : firstLow e k with
  | none => simp [pollOutcome_timeoutA hl]
  | some a =>
    obtain ⟨-, ha, -⟩ := firstLow_eq_some.mp hl
    cases hh : firstHigh e (k + a + 1) with
    | none =>
      rw [pollOutcome_timeoutB hl hh]
      dsimp only
      omega
    | some b =>
      obtain ⟨-, hb, -⟩ := firstHigh_eq_some.mp hh
      rw [pollOutcome_found hl hh]
      dsimp only
      omega

/-! ### Reset, CheckPresence and Initialize (R133 to R135) -/

/-- Settles O24: the update that Reset makes, read field by field. -/
theorem resetSendsThePulse : Obligations.ResetSendsThePulse := by
  refine ⟨fun _ => decode_of_mask (i := .opReset) (op := 1) fun _ => rfl, fun arg s => ⟨_, exec_opReset arg s, ?_⟩⟩
  simp [trace_eq, resetTrace]

/-- Settles O25: the update that CheckPresence makes, the poll's row within its bounds. -/
theorem checkPresenceFollowsTheTable : Obligations.CheckPresenceFollowsTheTable := by
  refine ⟨fun _ => decode_of_mask (i := .opCheckPresence) (op := 2) fun _ => rfl,
    fun arg s => ⟨_, exec_opCheckPresence arg s, rfl, ?_, rfl, ?_⟩⟩
  · simp [trace_eq]
  · exact ⟨(pollOutcome_bounds _ _).2, rfl, rfl, rfl, rfl⟩

/-- Settles O26: the update that Initialize makes, the poll's row within its bounds. -/
theorem initializeReleasesResetsAndProbes : Obligations.InitializeReleasesResetsAndProbes := by
  refine ⟨fun _ => decode_of_mask (i := .opInitialize) (op := 0) fun _ => rfl,
    fun arg s => ⟨_, exec_opInitialize arg s, rfl, ?_, ?_, ?_⟩⟩
  · simp [trace_eq, resetTrace]
  · exact Nat.add_assoc _ _ _
  · exact ⟨(pollOutcome_bounds _ _).2, rfl, rfl, rfl, rfl⟩

/-! ### Streams written out (R136, R139) -/

section
variable {e : Env} {k n : Nat} {b c : Bool} {rest : List Bool}

/-- A stretch of `n` answers of one level, `k` answers from now. -/
theorem answer_of_replicate (h : (e.consume k).dqIn = List.replicate n b ++ rest) :
    ∀ i < n, e.answer (k + i) = b := by
  intro i hi
  rw [← Env.answer_consume, Env.answer, h]
  simp [List.getElem?_append_left, hi]

/-- The answer that ends a stretch of one level. -/
theorem answer_after_replicate (h : (e.consume k).dqIn = List.replicate n b ++ c :: rest) : e.answer (k + n) = c := by
  rw [← Env.answer_consume, Env.answer, h]
  simp

theorem dqIn_after_replicate (h : (e.consume k).dqIn = List.replicate n b ++ rest) :
    (e.consume (k + n)).dqIn = rest := by
  rw [← Env.consume_consume, Env.consume_dqIn, h]
  simp

/-- What is left to answer after `n` answers of one level and the one that ends them. -/
theorem dqIn_after_replicate_cons (h : (e.consume k).dqIn = List.replicate n b ++ c :: rest) :
    (e.consume (k + n + 1)).dqIn = rest := by
  rw [← Env.consume_consume, Env.consume_dqIn, dqIn_after_replicate h, List.drop_one, List.tail_cons]

/-- Phase A ends at the low answer after `n` highs. -/
theorem firstLow_of_dqIn (h : (e.consume k).dqIn = List.replicate n true ++ false :: rest) (hn : n < 200) :
    firstLow e k = some n := firstLow_eq_some.mpr ⟨answer_after_replicate h, hn, answer_of_replicate h⟩

/-- Phase B ends at the high answer after `n` lows. -/
theorem firstHigh_of_dqIn (h : (e.consume k).dqIn = List.replicate n false ++ true :: rest) (hn : n < 240) :
    firstHigh e k = some n := firstHigh_eq_some.mpr ⟨answer_after_replicate h, hn, answer_of_replicate h⟩

end

/-- What a run of CheckPresence leaves, by the row of the poll's table. -/
theorem checkPresence_of_row {s : State} {p : PollOutcome} (hp : pollOutcome s.env 0 = p) (arg : Byte) :
    ∃ t, exec (.opCheckPresence arg) s = .next t ∧ t.flags.absent = p.absent ∧ t.obs.now = s.obs.now + p.time ∧
      t.env = s.env.consume p.answers := by
  subst hp
  exact ⟨_, exec_opCheckPresence arg s, rfl, rfl, rfl⟩

/-- Settles O40: on each shape of stream, the table's row and what its samples leave of the stream. -/
theorem checkPresenceOnWrittenStreams : Obligations.CheckPresenceOnWrittenStreams := by
  intro arg s rest a b
  simp only [List.append_assoc, List.singleton_append]
  refine ⟨fun h => ?_, fun ha hb h => ?_, fun ha h => ?_⟩
  · have hl : firstLow s.env 0 = none := firstLow_eq_none.mpr (answer_of_replicate h)
    have hrest : (s.env.consume 200).dqIn = rest := dqIn_after_replicate (k := 0) h
    obtain ⟨t, ht, habsent, hnow, henv⟩ := checkPresence_of_row (pollOutcome_timeoutA hl) arg
    exact ⟨t, ht, habsent, hnow, (congrArg Env.dqIn henv).trans hrest⟩
  · have hB := dqIn_after_replicate_cons (k := 0) h
    have hcount : 0 + a + 1 + b + 1 = a + b + 2 := by omega
    have hrest : (s.env.consume (a + b + 2)).dqIn = rest := hcount ▸ dqIn_after_replicate_cons hB
    obtain ⟨t, ht, habsent, hnow, henv⟩ :=
      checkPresence_of_row (pollOutcome_found (firstLow_of_dqIn h ha) (firstHigh_of_dqIn hB hb)) arg
    exact ⟨t, ht, habsent, hnow, (congrArg Env.dqIn henv).trans hrest⟩
  · have hB := dqIn_after_replicate_cons (k := 0) h
    have hh : firstHigh s.env (0 + a + 1) = none := firstHigh_eq_none.mpr (answer_of_replicate hB)
    have hcount : 0 + a + 1 + 240 = a + 241 := by omega
    have hrest : (s.env.consume (a + 241)).dqIn = rest := hcount ▸ dqIn_after_replicate hB
    obtain ⟨t, ht, habsent, hnow, henv⟩ := checkPresence_of_row (pollOutcome_timeoutB (firstLow_of_dqIn h ha) hh) arg
    exact ⟨t, ht, habsent, hnow, (congrArg Env.dqIn henv).trans hrest⟩

/-- Reset, with a line that goes low at the last poll of phase A and stays low through phase B. -/
def lowAtLastPoll : State :=
  { State.reset with env.dqIn := List.replicate 199 true ++ false :: List.replicate 240 false }

theorem pollOutcome_lowAtLastPoll :
    (pollOutcome lowAtLastPoll.env 0).answers = 440 ∧ (pollOutcome lowAtLastPoll.env 0).time = 439 := by
  have hA : (lowAtLastPoll.env.consume 0).dqIn =
      List.replicate 199 true ++ false :: (List.replicate 240 false ++ []) := by
    rw [List.append_nil]
    rfl
  have hh : firstHigh lowAtLastPoll.env (0 + 199 + 1) = none :=
    firstHigh_eq_none.mpr (answer_of_replicate (dqIn_after_replicate_cons hA))
  rw [pollOutcome_timeoutB (firstLow_of_dqIn hA (by decide)) hh]
  exact ⟨rfl, rfl⟩

/-- Settles O39: the table's bounds, and the run from `lowAtLastPoll`, which reaches both. -/
theorem presencePollIsBounded : Obligations.PresencePollIsBounded := by
  refine ⟨pollOutcome_bounds, fun arg s => ⟨_, exec_opCheckPresence arg s, ?_, ?_⟩, ?_⟩
  · exact Nat.add_le_add_left (pollOutcome_bounds s.env 0).1 _
  · exact Nat.add_le_add_left (pollOutcome_bounds s.env 0).2 _
  · obtain ⟨hanswers, htime⟩ := pollOutcome_lowAtLastPoll
    obtain ⟨t, ht, -, hnow, henv⟩ := checkPresence_of_row (s := lowAtLastPoll) rfl 0
    exact ⟨lowAtLastPoll, t, ht, by rw [henv, Env.consume_draws, hanswers], by rw [hnow, htime]⟩

end Sys2Proof
end

section
/-! PROOFS. The read slot as an operation: ReadBit for every word, argument and answer (42_bit_slots.md). -/

namespace Sys2Proof

open Sys2Proof.Machine

/-- Settles O27: the update that ReadBit makes, its one read slot answered by the next answer of the line. -/
theorem readBitReturnsTheSample : Obligations.ReadBitReturnsTheSample := by
  refine ⟨fun _ => decode_of_mask (i := .opReadBit) (op := 3) fun _ => rfl,
    fun arg s => ⟨_, exec_opReadBit arg s, ?_, rfl, ?_, rfl, rfl, rfl, rfl⟩⟩
  · rw [zextBit_eq_ite]
  · simp [trace_eq, readSlotTrace]

end Sys2Proof
end

section
/-! PROOFS. The byte transactions: ReadByte and WriteByte for every word, argument and answer, and the round trip of a
byte on the loopback fixture (43_byte_transactions.md). -/

namespace Sys2Proof

open Sys2Proof.Machine

/-! ### ReadByte and WriteByte (R171, R173) -/

/-- Settles O28: the update that ReadByte makes, bit k of the byte being answer k of the line. -/
theorem readByteAssemblesBitZeroFirst : Obligations.ReadByteAssemblesBitZeroFirst := by
  refine ⟨fun _ => decode_of_mask (i := .opReadByte) (op := 4) fun _ => rfl,
    fun arg s => ⟨_, exec_opReadByte arg s, rfl, rfl, fun k hk => ?_, ?_, rfl, rfl, rfl, rfl⟩⟩
  · simpa using receivedByte_getLsbD s.env 0 hk
  · simp [trace_eq]

/-- Settles O29: acceptance loads ARG, and the update that WriteByte makes sends it. -/
theorem writeByteSendsBitZeroFirst : Obligations.WriteByteSendsBitZeroFirst := by
  refine ⟨fun _ => decode_of_mask (i := .opWriteByte) (op := 5) fun _ => rfl,
    fun arg s => ⟨_, exec_opWriteByte arg s, loadOperand_writeByte arg s.regs.shreg, rfl, ?_, rfl, rfl, rfl, rfl⟩⟩
  simp [trace_eq]

/-! ### The round trip on the loopback fixture (R174) -/

/-- A write slot queues the bit that was pending, and its own bit is pending after it: a 1's low pulse is shorter than
15 and a 0's is not. -/
theorem loopbackScan_writeSlot (d : Bool) (low : Nat) (p : Option Bool) (b : Bool) (t : List Event) :
    loopbackScan d low p (writeSlotTrace b ++ t) =
      p.toList ++ loopbackScan false (if b then 2 else 60) (some b) t := by
  cases b <;> rfl

/-- Write slots one after the other: the bit that was pending is queued, then each slot's bit in order. -/
theorem loopbackScan_writeSlots (d : Bool) (low : Nat) (p : Option Bool) (bits : List Bool) :
    loopbackScan d low p (bits.flatMap writeSlotTrace) = p.toList ++ bits := by
  induction bits generalizing d low p with
  | nil => simp [loopbackScan]
  | cons b bits ih => simp [loopbackScan_writeSlot, ih]

/-- The fixture queues the bits of a written byte, bit 0 first. -/
theorem loopbackQueue_writeByteTrace (v : Byte) :
    loopbackQueue (writeByteTrace v) = (List.range 8).map v.getLsbD := by
  rw [writeByteTrace, ← List.flatMap_map, loopbackQueue, loopbackScan_writeSlots]
  rfl

/-- A byte whose bits are the next eight answers, bit 0 first, is the byte received. -/
theorem receivedByte_of_dqIn {e : Env} {v : Byte} {rest : List Bool}
    (h : e.dqIn = (List.range 8).map v.getLsbD ++ rest) : receivedByte e 0 = v := by
  apply BitVec.eq_of_getLsbD_eq
  intro k hk
  rw [receivedByte_getLsbD _ _ hk, Nat.zero_add, Env.answer, h, List.getElem?_append_left (by simpa using hk)]
  simp [hk]

/-- Settles O42: the fixture queues the bits in the order in which ReadByte assembles them. -/
theorem loopbackReturnsTheByte : Obligations.LoopbackReturnsTheByte := by
  intro v arg s rest
  obtain ⟨t, ht, -, -, htrace, -⟩ := writeByteSendsBitZeroFirst.2 v s
  have hqueue : loopbackQueue (t.trace.drop s.trace.length) = (List.range 8).map v.getLsbD := by
    rw [htrace, List.drop_left, loopbackQueue_writeByteTrace]
  obtain ⟨u, hu, hregs, -, -, -, -, henv, -⟩ := readByteAssemblesBitZeroFirst.2 arg
    { t with env.dqIn := (List.range 8).map v.getLsbD ++ rest }
  refine ⟨t, u, ht, ?_, ?_, ?_⟩
  · rw [hqueue]
    exact hu
  · rw [hregs]
    exact receivedByte_of_dqIn rfl
  · rw [henv]
    exact List.drop_left' (by simp)

end Sys2Proof
end

section
/-! PROOFS. The command sequencer's operations: StartConversion and GetTemperature for every word, argument and answer
stream, what they call, and what a line without a device gives (44_command_sequences.md). -/

namespace Sys2Proof

open Sys2Proof.Machine

/-! ### The answers after the first `m` (00_scope.md R11) -/

section
variable (e : Env) (m k : Nat)

theorem receivedByte_consume : receivedByte (e.consume m) k = receivedByte e (m + k) := by
  simp [receivedByte, Nat.add_assoc]

theorem readByteTrace_consume : readByteTrace (e.consume m) k = readByteTrace e (m + k) := by
  simp [readByteTrace, Nat.add_assoc]

theorem pollOutcome_consume : pollOutcome (e.consume m) k = pollOutcome e (m + k) := by
  simp [pollOutcome, firstLow, firstHigh, Nat.add_assoc]

end

/-! ### The decode as numbers (45_temperature_decode.md R211, R214) -/

/-- The magnitude is the sixteen bits read, on the negative path complemented. -/
theorem decodeMag16_toNat (hi lo : Byte) : (decodeMag16 hi lo).toNat =
    if decodeSign hi = true then 65535 - (256 * hi.toNat + lo.toNat) else 256 * hi.toNat + lo.toNat := by
  have hlo := lo.isLt
  have hhi := hi.isLt
  unfold decodeMag16
  split
  · rw [append_toNat, BitVec.toNat_not, BitVec.toNat_not]
    omega
  · exact append_toNat hi lo

/-- TEMP is the closed form: SIGN is set exactly above raw 0x07FF. -/
theorem decodeTempWord_toInt (hi lo : Byte) : (decodeTempWord hi lo).toInt = decodedTenths hi lo := by
  have hlo := lo.isLt
  have hsign := decodeSign_iff hi
  have hmag := decodeMag16_toNat hi lo
  have hscaled := decodeScaled_toNat (decodeMag16 hi lo)
  obtain ⟨hpos, hneg⟩ := toInt_scaled (decodeScaled (decodeMag16 hi lo))
  simp only [decodeTempWord, decodedTenths]
  by_cases hs : decodeSign hi = true
  · have hraw : ¬256 * hi.toNat + lo.toNat ≤ 0x07FF := by
      have := hsign.mp hs
      omega
    rw [if_pos hs] at hmag ⊢
    rw [if_neg hraw, hneg, hscaled, hmag, Nat.mul_comm]
  · have hraw : 256 * hi.toNat + lo.toNat ≤ 0x07FF := by
      have := mt hsign.mpr hs
      omega
    rw [if_neg hs] at hmag ⊢
    rw [if_pos hraw, hpos, hscaled, hmag, Nat.mul_comm]

/-! ### StartConversion and GetTemperature (R193, R194) -/

/-- Settles O30: the update that StartConversion makes, the poll's row within its bounds. -/
theorem startConversionSendsItsChain : Obligations.StartConversionSendsItsChain := by
  refine ⟨fun _ => decode_of_mask (i := .opStartConversion) (op := 6) fun _ => rfl,
    fun arg s => ⟨_, exec_opStartConversion arg s, rfl, rfl, ?_, rfl, ?_, rfl, rfl⟩⟩
  · simp [trace_eq]
  · exact (pollOutcome_bounds _ _).2

/-- Settles O31: the update that GetTemperature makes, its answers counted from acceptance and its decode as numbers. -/
theorem getTemperatureReadsAndDecodes : Obligations.GetTemperatureReadsAndDecodes := by
  refine ⟨fun _ => decode_of_mask (i := .opGetTemperature) (op := 7) fun _ => rfl, ?_⟩
  rintro arg s p1 p2 n rfl hp2 rfl
  have hpoll : pollOutcome (s.env.consume (pollOutcome s.env 0).answers) 0 = p2 :=
    (pollOutcome_consume _ _ _).trans hp2.symm
  have hbound : p2.time ≤ 439 := hp2 ▸ (pollOutcome_bounds _ _).2
  have hexec := exec_opGetTemperature arg s _ rfl
  simp only [hpoll, receivedByte_consume, readByteTrace_consume, Env.consume_consume, ← Nat.add_assoc] at hexec
  refine ⟨_, hexec, rfl, rfl, rfl, rfl, decodeSign_iff _, decodeMag16_toNat _ _, decodeTempWord_toInt _ _, rfl, rfl,
    rfl, ?_, ?_, (pollOutcome_bounds _ _).2, hbound, rfl, rfl, rfl⟩
  · simp [trace_eq]
  · dsimp only
    omega

/-! ### What the composite operations call (R196) -/

/-- The calls a trace records: its `L`, its `Z` and its samples. -/
def calls (tr : List Event) : Nat × Nat × Nat := (tr.count .L, tr.count .Z, tr.count (.S true) + tr.count (.S false))

theorem calls_eq_iff {tr : List Event} {l z n : Nat} : calls tr = (l, z, n) ↔
    tr.count .L = l ∧ tr.count .Z = z ∧ tr.count (.S true) + tr.count (.S false) = n := by
  simp [calls]

theorem calls_append (tr tr' : List Event) : calls (tr ++ tr') = calls tr + calls tr' := by
  simp only [calls, List.count_append, Prod.mk_add_mk, Nat.add_add_add_comm]

/-- Pieces that all make the calls `c`. -/
theorem calls_flatten {trs : List (List Event)} {c : Nat × Nat × Nat} (h : ∀ tr ∈ trs, calls tr = c) :
    calls trs.flatten = trs.length • c := by
  induction trs with
  | nil => rw [List.length_nil, zero_nsmul]; rfl
  | cons tr trs ih =>
    rw [List.flatten_cons, calls_append, h tr List.mem_cons_self, ih fun tr' h' => h tr' (List.mem_cons_of_mem _ h'),
      List.length_cons, succ_nsmul']

theorem calls_flatMap {l : List Nat} {f : Nat → List Event} {c : Nat × Nat × Nat} (h : ∀ k, calls (f k) = c) :
    calls (l.flatMap f) = l.length • c := by
  rw [List.flatMap_def, calls_flatten (c := c) (by simp [h]), List.length_map]

theorem calls_resetTrace : calls resetTrace = (1, 1, 0) := by decide

theorem calls_sample (b : Bool) : calls [.S b] = (0, 0, 1) := by cases b <;> decide

theorem calls_writeByteTrace (v : Byte) : calls (writeByteTrace v) = (8, 8, 0) :=
  calls_flatMap (c := (1, 1, 0)) fun k => by cases v.getLsbD k <;> decide

theorem calls_readByteTrace (e : Env) (k : Nat) : calls (readByteTrace e k) = (8, 8, 8) :=
  calls_flatMap (c := (1, 1, 1)) fun i => by cases e.answer (k + i) <;> decide

theorem calls_pollsTrace (b : Bool) (n : Nat) : calls (pollsTrace b n) = (0, 0, n) := by
  rw [pollsTrace, calls_flatten (c := (0, 0, 1)), List.length_replicate]
  · simp
  · intro tr htr
    obtain ⟨-, rfl⟩ := List.mem_replicate.mp htr
    cases b <;> decide

/-- A poll drives nothing, and its samples are the answers it uses. -/
theorem calls_pollOutcome (e : Env) (k : Nat) : calls (pollOutcome e k).trace = (0, 0, (pollOutcome e k).answers) := by
  cases hl : firstLow e k with
  | none => rw [pollOutcome_timeoutA hl, calls_pollsTrace]
  | some a =>
    cases hh : firstHigh e (k + a + 1) with
    | none =>
      rw [pollOutcome_timeoutB hl hh]
      simp only [calls_append, calls_pollsTrace, calls_sample, Prod.mk_add_mk, Nat.add_assoc]
    | some b =>
      rw [pollOutcome_found hl hh]
      simp only [calls_append, calls_pollsTrace, calls_sample, Prod.mk_add_mk, Nat.add_assoc, Nat.add_comm 1]

/-- Settles O37: the calls of each piece of the two chains, added up. -/
theorem compositesMakeExactlyTheirCalls : Obligations.CompositesMakeExactlyTheirCalls := by
  intro arg s
  obtain ⟨t, ht, -, -, htrace, -⟩ := startConversionSendsItsChain.2 arg s
  obtain ⟨u, hu, -, -, -, -, -, -, -, -, -, -, hutrace, -⟩ :=
    getTemperatureReadsAndDecodes.2 arg s _ _ _ rfl rfl rfl
  simp only [List.append_assoc] at htrace hutrace
  refine ⟨⟨t, _, ht, htrace, ?_⟩, ⟨u, _, hu, hutrace, ?_⟩⟩
  · rw [← calls_eq_iff]
    simp [calls_append, calls_resetTrace, calls_pollOutcome, calls_writeByteTrace]
  · rw [← calls_eq_iff]
    simp [calls_append, calls_resetTrace, calls_pollOutcome, calls_writeByteTrace, calls_readByteTrace, Nat.add_assoc]

/-! ### A line that is never low (R194, 70_reset_and_hazards.md R276) -/

/-- Eight highs are the byte 0xFF. -/
theorem receivedByte_of_high {e : Env} {k : Nat} (h : ∀ i < 8, e.answer (k + i) = true) : receivedByte e k = 0xFF := by
  apply BitVec.eq_of_getLsbD_eq
  intro i hi
  rw [receivedByte_getLsbD e k hi, h i hi]
  exact (BitVec.getLsbD_allOnes.trans (decide_eq_true hi)).symm

/-- Settles O47: both polls time out after 200 answers each, and the sixteen after them are the two bytes. -/
theorem noDeviceReadsZero : Obligations.NoDeviceReadsZero := by
  intro arg s h
  have high (k n : Nat) (hk : k + n ≤ 416) : ∀ i < n, s.env.answer (k + i) = true := fun i hi => h _ (by omega)
  have hp1 := pollOutcome_timeoutA (firstLow_eq_none.mpr (high 0 200 (by decide)))
  have hp2 := pollOutcome_timeoutA (firstLow_eq_none.mpr (high 200 200 (by decide)))
  obtain ⟨t, ht, hlo, hhi, -, -, hsign, hmag, htemp, habsent, -, -, -, hnow, -⟩ :=
    getTemperatureReadsAndDecodes.2 arg s _ _ 400 hp1.symm hp2.symm rfl
  rw [receivedByte_of_high (high 400 8 (by decide))] at hlo
  rw [receivedByte_of_high (high 408 8 (by decide))] at hhi
  have hsign' : t.flags.sign = true := hsign.mpr (by rw [hhi]; decide)
  rw [hlo, hhi] at htemp
  rw [hlo, hhi, if_pos hsign'] at hmag
  exact ⟨t, ht, habsent, hlo, hhi, hsign', BitVec.eq_of_toNat_eq hmag, BitVec.eq_of_toInt_eq htemp, hnow⟩

end Sys2Proof
end

section
/-! PROOFS. The phases of GetTemperature and when each ends (44_command_sequences.md R195). -/

namespace Sys2Proof

open Sys2Proof.Machine

/-! ### A run of phases, row by row -/

/-- How far an operation has come: the state of CS, the time, and the inputs to come. -/
structure Progress where
  cs : CsState
  now : Nat
  env : Env

def progress (s : State) : Progress := ⟨s.seq.cs, s.obs.now, s.env⟩

/-- A row of the table of R195: what the state of CS lasts, the answers it uses, and the state after it. -/
def Progress.next (p : Progress) : Progress :=
  match p.cs with
  | .rp1 | .rp2 =>
    ⟨followingPhase p.cs, p.now + (765 + (pollOutcome p.env 0).time), p.env.consume (pollOutcome p.env 0).answers⟩
  | .skip1 | .conv | .skip2 | .rdsp => ⟨followingPhase p.cs, p.now + 496, p.env⟩
  | .rdlo | .rdhi => ⟨followingPhase p.cs, p.now + 512, p.env.consume 8⟩
  | .dec | .idle | .prim | .init => ⟨followingPhase p.cs, p.now, p.env⟩

/-- In GetTemperature a phase step is a row of the table. -/
theorem progress_phaseStep {s : State} (hs : Ready s) (hb : s.flags.busy = true) (ho : s.seq.opr = 7) :
    progress (phaseStep s) = (progress s).next := by
  have hne := hs.cs hb
  have hcs : (phaseStep s).seq.cs = followingPhase s.seq.cs := by
    rw [(phaseStep_next hb hne).1]
    exact if_neg fun h => h.2 ho
  have hp := hs.path
  rw [progress, hcs, phaseStep, if_neg hne, advance_now, advance_env]
  cases h : s.seq.cs with
  | rp1 | rp2 => simp [phaseSeq, Progress.next, progress, h, resetPresence_eq]
  | skip1 | conv | skip2 | rdsp => simp [phaseSeq, Progress.next, progress, h, writeByteSeq_eq]
  | rdlo | rdhi => simp [phaseSeq, Progress.next, progress, h, readByteSeq_eq]
  | dec => simp [phaseSeq, Progress.next, progress, h]
  | idle => exact absurd h hne
  | prim | init => simp [pathLegal, h, ho] at hp

/-- A run of `k` phases of GetTemperature is `k` rows of the table. -/
theorem progress_run {k : Nat} {s u : State} (h : BusyRun phaseStep k s u) (hs : Ready s) (ho : s.seq.opr = 7) :
    progress u = Progress.next^[k] (progress s) := by
  induction h with
  | nil => rfl
  | cons hb _ ih =>
    rw [Function.iterate_succ_apply, ← progress_phaseStep hs hb ho]
    exact ih (hs.after_phaseStep hb) ((phaseStep_effect _).frame.opr.trans ho)

/-- The first `k` steps of a run. -/
theorem Machine.BusyRun.take {f : State → State} {k n : Nat} {s t : State} (h : BusyRun f n s t) (hk : k ≤ n) :
    ∃ u, BusyRun f k s u := by
  induction h generalizing k with
  | nil s => exact ⟨s, Nat.le_zero.mp hk ▸ .nil s⟩
  | @cons n s t hb _ ih =>
    cases k with
    | zero => exact ⟨s, .nil s⟩
    | succ k =>
      obtain ⟨u, hu⟩ := ih (Nat.le_of_succ_le_succ hk)
      exact ⟨u, .cons hb hu⟩

/-! ### The timeline -/

/-- Acceptance and `k` of the nine phases of GetTemperature. -/
theorem getTemperature_phases {s : State} {w : CommandWord} (hs : AtRest s) (ho : opOf w = 7) {k : Nat} (hk : k ≤ 9) :
    ∃ t, steps (1 + k) (watched .byPhase [presenting w] s) = .next t ∧
      progress t = Progress.next^[k] ⟨.rp1, s.obs.now, (watched .byPhase [] s).env⟩ := by
  obtain ⟨_, -, hrun⟩ := exec_eq_phases w (watched .byPhase [] s)
  obtain ⟨t, ht⟩ := hrun.take (k := k) (by rw [ho]; exact hk)
  obtain ⟨hstep, hquiet⟩ := accept_presented (v := .byPhase) (by simp) w hs.1
  have hready := ready_accept (s := watched .byPhase [] s) hs (opOf w) (argOf w)
  refine ⟨t, ?_, (progress_run ht hready ho).trans ?_⟩
  · rw [Nat.add_comm]
    exact (steps_succ hstep).trans (phase_steps ht hquiet hready)
  · rw [ho]
    rfl

/-- The poll sees the line, not the host or the view. -/
theorem pollOutcome_watched (v : View) (inputs : List HostInput) (s : State) (k : Nat) :
    pollOutcome (watched v inputs s).env k = pollOutcome s.env k := rfl

/-- Settles O41: the rows of the table one after the other. -/
theorem timelineOfGetTemperature : Obligations.TimelineOfGetTemperature := by
  rintro s w c1 c2 hs ho rfl rfl k cs ends hrow
  simp only [List.mem_cons, Prod.mk.injEq, List.not_mem_nil, or_false] at hrow
  obtain ⟨t, ht, hp⟩ := getTemperature_phases hs ho (k := k) (by omega)
  have hcs := congrArg Progress.cs hp
  have hnow := congrArg Progress.now hp
  refine ⟨t, ht, ?_⟩
  obtain ⟨rfl, rfl, rfl⟩ | ⟨rfl, rfl, rfl⟩ | ⟨rfl, rfl, rfl⟩ | ⟨rfl, rfl, rfl⟩ | ⟨rfl, rfl, rfl⟩ | ⟨rfl, rfl, rfl⟩ |
    ⟨rfl, rfl, rfl⟩ | ⟨rfl, rfl, rfl⟩ | ⟨rfl, rfl, rfl⟩ | ⟨rfl, rfl, rfl⟩ := hrow
  all_goals
    refine ⟨hcs, ?_⟩
    simp only [Function.iterate_succ_apply, Function.iterate_zero, id, progress, Progress.next, followingPhase,
      pollOutcome_consume, pollOutcome_watched, Nat.add_zero] at hnow
    omega

end Sys2Proof
end

section
/-! PROOFS. The temperature decoder: the step of state DEC, and the decode as a function of the bytes
(45_temperature_decode.md). -/

namespace Sys2Proof

open Sys2Proof.Machine

/-! ### The step of state DEC (R210 to R214) -/

/-- The step that begins DEC in the micro-operation view also ends it. -/
theorem startPhase_dec {s : State} (hc : s.seq.cs = .dec) : startPhase s = complete (decodeTemp s) := by
  rw [startPhase, hc]
  exact advance_of_last (.inr (.inr (.inl hc)))

/-- At the start of DEC every view takes the same step, the whole phase. -/
theorem step_dec {s : State} (hr : s.env.present.rst = false) (hb : s.flags.busy = true)
    (ha : atPhaseStart s = true) (hc : s.seq.cs = .dec) :
    step s = .next (complete (decodeTemp (beginStep s))) := by
  obtain ⟨hrp, hbs, hyt, hd⟩ := atPhaseStart_iff.mp ha
  have hphase : phaseStep (beginStep s) = complete (decodeTemp (beginStep s)) := phaseStep_dec hc
  have hmicro : microStep (beginStep s) = complete (decodeTemp (beginStep s)) :=
    (microStep_start (s := beginStep s) hd hbs hyt hrp).trans (startPhase_dec hc)
  rw [step_busy hr hb, hphase, hmicro, ite_self]

/-- The magnitude byte by byte: on the negative path each byte is complemented and no one is added (R210, R211). -/
theorem decodeMag16_toNat_eq_bytes (hi lo : Byte) : (decodeMag16 hi lo).toNat =
    if decodeSign hi = true then 256 * (255 - hi.toNat) + (255 - lo.toNat) else 256 * hi.toNat + lo.toNat := by
  have hhi := hi.isLt
  have hlo := lo.isLt
  rw [decodeMag16_toNat]
  congr 1
  omega

/-- TEMP is 5/8 of the magnitude truncated, with the sign put on after it (R212, R213). -/
theorem decodeTempWord_toInt_eq_scaled (hi lo : Byte) : (decodeTempWord hi lo).toInt =
    if decodeSign hi = true then -(((decodeMag16 hi lo).toNat * 5 / 8 : Nat) : Int)
    else (((decodeMag16 hi lo).toNat * 5 / 8 : Nat) : Int) := by
  obtain ⟨hpos, hneg⟩ := toInt_scaled (decodeScaled (decodeMag16 hi lo))
  rw [decodeScaled_toNat] at hpos hneg
  unfold decodeTempWord
  split
  · exact hneg
  · exact hpos

/-- Settles O44: the step is `decodeTemp` and completion, read field by field. -/
theorem decodeIsTheClosedForm : Obligations.DecodeIsTheClosedForm := by
  intro s hr hb ha hc
  exact ⟨_, step_dec hr hb ha hc, decodeSign_iff _, decodeMag16_toNat_eq_bytes _ _,
    decodeTempWord_toInt_eq_scaled _ _, decodeTempWord_toInt _ _, rfl, rfl, rfl, rfl, rfl⟩

/-! ### The decode over all bytes (R215, R217) -/

/-- The closed form above raw 0x07FF. -/
theorem decodedTenths_of_neg {hi lo : Byte} (h : 0x07FF < 256 * hi.toNat + lo.toNat) :
    decodedTenths hi lo = -((5 * (65535 - (256 * hi.toNat + lo.toNat)) / 8 : Nat) : Int) :=
  if_neg (Nat.not_le.mpr h)

/-- The closed form up to raw 0x07FF is not negative. -/
theorem decodedTenths_nonneg {hi lo : Byte} (h : 256 * hi.toNat + lo.toNat ≤ 0x07FF) : 0 ≤ decodedTenths hi lo := by
  rw [decodedTenths, if_pos h]
  exact Int.natCast_nonneg _

/-- Settles O45: only the closed form's negative path goes below 0, and it rises with raw. -/
theorem decodeRange : Obligations.DecodeRange := by
  refine ⟨fun hi lo => ?_, by decide, by decide⟩
  obtain ⟨hmin, hmax⟩ := decodeTempWord_inRange hi lo
  refine ⟨hmin, hmax, ?_⟩
  rw [decodeTempWord_toInt]
  by_cases hraw : 256 * hi.toNat + lo.toNat ≤ 0x07FF
  · have := decodedTenths_nonneg hraw
    omega
  · rw [decodedTenths_of_neg (Nat.not_le.mp hraw)]
    omega

/-- Settles O46: raw 65536 - k is on the negative path, and its complement is k - 1. -/
theorem decodeAddsNoOne : Obligations.DecodeAddsNoOne := by
  intro hi lo k hk1 hk hraw
  have hcomplement : 65535 - (256 * hi.toNat + lo.toNat) = k - 1 := by omega
  rw [decodeTempWord_toInt, decodedTenths_of_neg (by omega), hcomplement]

end Sys2Proof
end

section
/-! PROOFS. The outcomes of a step: no fault, no refusal, and an idle engine that is presented nothing
(60_exceptions.md). -/

namespace Sys2Proof

open Sys2Proof.Machine

/-- Settles O9, by what the step does: hardware reset, a state of CS or a micro-operation of a busy engine, and of an
idle engine a whole operation, an acceptance or the host's wait. -/
theorem everyStepAnswersANextState : Obligations.EveryStepAnswersANextState := by
  intro s
  cases hr : s.env.present.rst with
  | true =>
    obtain ⟨t, ht, -⟩ := hardwareResetLeavesResetValues s hr
    exact ⟨t, ht⟩
  | false =>
    cases hb : s.flags.busy with
    | true =>
      rw [step_busy hr hb]
      split
      · exact ⟨phaseStep (beginStep s), rfl⟩
      · exact ⟨microStep (beginStep s), rfl⟩
    | false =>
      rw [step_idle hr hb]
      split
      · split
        · obtain ⟨u, hu⟩ := exec_completes s.env.present.word (beginStep s)
          exact ⟨complete u, hu⟩
        · exact ⟨accept s.env.present.cmdOp s.env.present.cmdArg (beginStep s), rfl⟩
      · exact ⟨idleFor s.env.present.gap (beginStep s), rfl⟩

/-- Settles O20: without a command the step of an idle engine is `idleFor` the host's gap. -/
theorem idleEngineOnlyLetsTimePass : Obligations.IdleEngineOnlyLetsTimePass := by
  intro s hr hb hv
  rw [step_idle hr hb, if_neg (ne_true_of_eq_false hv)]
  rfl

end Sys2Proof
end

section
/-! PROOFS. The host's reading of the result ports: which may be read after an operation, and what a readable port shows
in every run (70_reset_and_hazards.md R274). -/

namespace Sys2Proof

open Sys2Proof.Machine

/-! ### What a command leaves for the host (R274, 10_state.md R39) -/

/-- After a whole operation the engine is idle, shows `done`, and OPR still holds the operation's code. -/
theorem exec_completes_opr (w : CommandWord) (s : State) : ∃ t, exec (decodeCommand w) s = .next t ∧
    t.flags.busy = false ∧ t.obs.done = true ∧ t.seq.opr = opOf w := by
  obtain ⟨u, hu⟩ := exec_completes w s
  obtain ⟨t, ht, hrun⟩ := exec_eq_phases w s
  obtain rfl := Host.Outcome.next.inj (hu.symm.trans ht)
  have hopr : (complete u).seq.opr = opOf w :=
    hrun.keeps (P := fun u => u.seq.opr = opOf w) (fun v _ hv => (phaseStep_effect v).frame.opr.trans hv) rfl
  exact ⟨_, hu, rfl, rfl, hopr⟩

/-- A word presented to an idle engine watched by operation is run by the step. -/
theorem step_presented (w : CommandWord) {s : State} (hb : s.flags.busy = false) :
    step (watched .byOperation [presenting w] s) =
      exec (decodeCommand w) (beginStep (watched .byOperation [presenting w] s)) := by
  have hw : decode (.cmd11 (presenting w).word) = .ok (decodeCommand w) :=
    congrArg (fun v => decode (.cmd11 v)) (commandWord_fields w)
  exact stepRunsTheFetchedInstruction.1 _ _ rfl hb rfl rfl hw

/-- The ports that may be read after the first completion are those its operation writes. -/
theorem mayReadResults_first {t : State} (hb : t.flags.busy = false) (p : ResultPort) :
    MayReadResults p (Results.nothing.note t) t ↔ p.writtenBy t.seq.opr = true := by
  simp [MayReadResults, hb]

/-- What the first completion notes is on the ports. -/
theorem resultsHeld_first (t : State) : ResultsHeld (Results.nothing.note t) t := by
  constructor <;> exact fun x hx => .inl (Option.some.inj (Option.ite_none_right_eq_some.mp hx).2)

/-- Settles O48: reset empties the notes, a busy engine's ports are not to be read, and a completion notes the ports
that its operation writes. -/
theorem resultPortsAreReadableAfterTheirOperations : Obligations.ResultPortsAreReadableAfterTheirOperations := by
  refine ⟨fun s t r p hrst _ => ?_, fun s r p hb => ?_, fun s w hb => ?_⟩
  · simp [MayReadResults, Results.afterStep_reset hrst]
  · simp [MayReadResults, hb]
  · obtain ⟨t, ht, hbt, hd, ho⟩ := exec_completes_opr w (beginStep (watched .byOperation [presenting w] s))
    refine ⟨t, _, (step_presented w hb).trans ht, (Results.afterStep_done rfl hd).symm, ?_⟩
    simp only [mayReadResults_first hbt, ho]
    exact ⟨by simp [ResultPort.writtenBy, or_assoc], by simp [ResultPort.writtenBy], by simp [ResultPort.writtenBy],
      resultsHeld_first t⟩

/-! ### Runs of a host that notes the results -/

/-- Every run goes on, and keeps the notes true: the step lemmas along the steps. -/
theorem stepsNoting_keeps_resultsHeld (n : Nat) {s : State} {r : Results} (hl : Legal s) (hr : ResultsHeld r s) :
    ∃ t r', stepsNoting n s r = .next (t, r') ∧ ResultsHeld r' t := by
  induction n generalizing s r with
  | zero => exact ⟨s, r, rfl, hr⟩
  | succ n ih =>
    obtain ⟨u, hu⟩ := everyStepAnswersANextState s
    obtain ⟨t, r', hrun, ht⟩ := ih (stepKeepsLegal s u hl hu) (stepKeepsResultsHeld s u r hl hr hu)
    exact ⟨t, r', by rw [stepsNoting, hu]; exact hrun, ht⟩

/-- A note that is there and true of the port is the port's value. -/
theorem note_eq_some {α : Type} {note : Option α} {v : α} (h : ∀ x, note = some x → v = x)
    (hk : note.isSome = true) : note = some v := by
  obtain ⟨x, hx⟩ := Option.isSome_iff_exists.mp hk
  rw [hx, h x hx]

/-- Settles O50: the notes are true along the run, and a port may be read only of an idle engine. -/
theorem readableResultIsTheLastOneWritten : Obligations.ReadableResultIsTheLastOneWritten := by
  intro e n
  have hl : Legal { State.reset with env := e } := hardwareReset_legal { State.reset with env := e }
  obtain ⟨t, r, hrun, hr⟩ := stepsNoting_keeps_resultsHeld n hl (resultsHeld_nothing _)
  exact ⟨t, r, hrun, fun ⟨hb, hk⟩ => note_eq_some (hr.of_idle hb).1 hk,
    fun ⟨hb, hk⟩ => note_eq_some (hr.of_idle hb).2.1 hk, fun ⟨hb, hk⟩ => note_eq_some (hr.of_idle hb).2.2 hk⟩

end Sys2Proof
end

section
/-! PROOFS. How long each operation lasts and how long it drives the line low (70_reset_and_hazards.md R278). -/

namespace Sys2Proof

open Sys2Proof.Machine

/-! ### How long a trace lasts and drives the line low -/

/-- The stretch `tr` lasts `time` and drives the line low for `low` of it; it begins and ends with the line released, so
that what follows adds its own. -/
def Lasts (tr : List Event) (time low : Nat) : Prop := ∀ rest : List Event,
  traceTime (tr ++ rest) = time + traceTime rest ∧ lowTime false (tr ++ rest) = low + lowTime false rest

theorem Lasts.append {tr tr' : List Event} {m n l k : Nat} (h : Lasts tr m l) (h' : Lasts tr' n k) :
    Lasts (tr ++ tr') (m + n) (l + k) := by
  intro rest
  obtain ⟨htime, hlow⟩ := h (tr' ++ rest)
  obtain ⟨htime', hlow'⟩ := h' rest
  rw [List.append_assoc]
  omega

/-- Pieces of one length, each with its own low time. -/
theorem lasts_flatMap {f : Nat → List Event} {n : Nat} {g : Nat → Nat} (h : ∀ k, Lasts (f k) n (g k)) (l : List Nat) :
    Lasts (l.flatMap f) (n * l.length) (l.map g).sum := by
  induction l with
  | nil => intro rest; simp
  | cons k l ih =>
    rw [List.flatMap_cons, List.length_cons, Nat.mul_succ, Nat.add_comm, List.map_cons, List.sum_cons]
    exact (h k).append ih

theorem lasts_release : Lasts [.Z] 0 0 := fun rest => by simp [traceTime, lowTime]

theorem lasts_sample (b : Bool) : Lasts [.S b] 0 0 := fun rest => by simp [traceTime, lowTime]

theorem lasts_resetTrace : Lasts resetTrace 765 750 := fun rest => by
  simp +arith [resetTrace, traceTime, lowTime]

theorem lasts_writeSlotTrace (b : Bool) : Lasts (writeSlotTrace b) 62 (if b then 2 else 60) := fun rest => by
  cases b <;> simp +arith [writeSlotTrace, traceTime, lowTime]

theorem lasts_readSlotTrace (b : Bool) : Lasts (readSlotTrace b) 64 2 := fun rest => by
  simp +arith [readSlotTrace, traceTime, lowTime]

theorem lasts_readByteTrace (e : Env) (k : Nat) : Lasts (readByteTrace e k) 512 16 :=
  lasts_flatMap (fun _ => lasts_readSlotTrace _) (List.range 8)

/-- A one drives the line low for 2 of a slot, 58 less than a zero. -/
theorem sum_lowPulses (b : Nat → Bool) (l : List Nat) :
    (l.map fun k => if b k then 2 else 60).sum + 58 * l.countP b = 60 * l.length := by
  induction l with
  | nil => rfl
  | cons k l ih =>
    rw [List.map_cons, List.sum_cons, List.countP_cons, List.length_cons]
    split <;> omega

theorem lasts_writeByteTrace (v : Byte) :
    Lasts (writeByteTrace v) 496 (480 - 58 * (List.range 8).countP fun k => v.getLsbD k) := by
  have hlow := sum_lowPulses (fun k => v.getLsbD k) (List.range 8)
  rw [List.length_range] at hlow
  rw [← Nat.eq_sub_of_add_eq hlow]
  exact lasts_flatMap (fun k => lasts_writeSlotTrace (v.getLsbD k)) (List.range 8)

theorem lasts_pollsTrace (b : Bool) (n : Nat) : Lasts (pollsTrace b n) n 0 := by
  induction n with
  | zero => intro rest; simp [pollsTrace]
  | succ n ih =>
    have hpoll : Lasts [.S b, .D 1] 1 0 := fun rest => by simp [traceTime, lowTime]
    have h := hpoll.append ih
    rw [Nat.add_comm 1 n] at h
    exact h

/-- A poll lasts the row's time and leaves the line alone. -/
theorem lasts_pollOutcome (e : Env) (k : Nat) : Lasts (pollOutcome e k).trace (pollOutcome e k).time 0 := by
  cases hl : firstLow e k with
  | none =>
    rw [pollOutcome_timeoutA hl]
    exact lasts_pollsTrace true 200
  | some a =>
    cases hh : firstHigh e (k + a + 1) with
    | none =>
      rw [pollOutcome_timeoutB hl hh]
      exact ((lasts_pollsTrace true a).append (lasts_sample false)).append (lasts_pollsTrace false 240)
    | some b =>
      rw [pollOutcome_found hl hh]
      exact (((lasts_pollsTrace true a).append (lasts_sample false)).append (lasts_pollsTrace false b)).append
        (lasts_sample true)

/-! ### The durations of the operations -/

theorem lasts_resetPresence (e : Env) (k : Nat) :
    Lasts (resetTrace ++ (pollOutcome e k).trace) (765 + (pollOutcome e k).time) 750 :=
  lasts_resetTrace.append (lasts_pollOutcome e k)

/-- SKIP_ROM has four ones and CONVERT_T two: 248 and 364. -/
theorem lasts_skipRomConvertT : Lasts (writeByteTrace 0xCC ++ writeByteTrace 0x44) 992 612 :=
  (lasts_writeByteTrace 0xCC).append (lasts_writeByteTrace 0x44)

/-- SKIP_ROM has four ones and READ_SCRATCHPAD six: 248 and 132. -/
theorem lasts_skipRomReadScratchpad : Lasts (writeByteTrace 0xCC ++ writeByteTrace 0xBE) 992 380 :=
  (lasts_writeByteTrace 0xCC).append (lasts_writeByteTrace 0xBE)

/-- An operation that adds a stretch of trace and its time lasts that long and drives the line low that long. -/
theorem Lasts.duration {i : Instr} {s t : State} {tr : List Event} {time lo hi low : Nat} (h : Lasts tr time low)
    (he : exec i s = .next t) (htr : t.trace = s.trace ++ tr) (hnow : t.obs.now = s.obs.now + time)
    (hlo : lo ≤ time) (hhi : time ≤ hi) :
    ∃ t tr, exec i s = .next t ∧ t.trace = s.trace ++ tr ∧ t.obs.now = s.obs.now + traceTime tr ∧
      lo ≤ traceTime tr ∧ traceTime tr ≤ hi ∧ lowTime false tr = low := by
  obtain ⟨htime, hlow⟩ : traceTime tr = time ∧ lowTime false tr = low := by simpa [traceTime, lowTime] using h []
  exact ⟨t, tr, he, htr, htime ▸ hnow, htime ▸ hlo, htime ▸ hhi, hlow⟩

/-- Settles O38: each operation's trace, cut into its stretches, and a poll of at most 439. -/
theorem durationsOfTheOperations : Obligations.DurationsOfTheOperations := by
  rintro i s lo hi low arg (⟨rfl, rfl, rfl, rfl⟩ | ⟨rfl, rfl, rfl, rfl⟩ | ⟨rfl, rfl, rfl, rfl⟩ | ⟨rfl, rfl, rfl, rfl⟩ |
    ⟨rfl, rfl, rfl, rfl⟩ | ⟨rfl, rfl, rfl, rfl⟩ | ⟨rfl, rfl, rfl, rfl⟩ | ⟨rfl, rfl, rfl, rfl⟩)
  · obtain ⟨t, he, -, htr, hnow, hc, -⟩ := initializeReleasesResetsAndProbes.2 arg s
    have h := lasts_release.append (lasts_resetPresence s.env 0)
    exact h.duration he (htr.trans (List.append_assoc _ _ _)) (by omega) (by omega) (by omega)
  · obtain ⟨t, he, htr, hnow, -⟩ := resetSendsThePulse.2 arg s
    exact lasts_resetTrace.duration he htr hnow le_rfl le_rfl
  · obtain ⟨t, he, -, htr, hnow, hc, -⟩ := checkPresenceFollowsTheTable.2 arg s
    exact (lasts_pollOutcome s.env 0).duration he htr hnow (Nat.zero_le _) hc
  · obtain ⟨t, he, -, -, htr, hnow, -⟩ := readBitReturnsTheSample.2 arg s
    exact (lasts_readSlotTrace _).duration he htr hnow le_rfl le_rfl
  · obtain ⟨t, he, -, -, -, htr, hnow, -⟩ := readByteAssemblesBitZeroFirst.2 arg s
    exact (lasts_readByteTrace s.env 0).duration he htr hnow le_rfl le_rfl
  · obtain ⟨t, he, -, -, htr, hnow, -⟩ := writeByteSendsBitZeroFirst.2 arg s
    exact (lasts_writeByteTrace arg).duration he htr hnow le_rfl le_rfl
  · obtain ⟨t, he, -, -, htr, hnow, hc, -⟩ := startConversionSendsItsChain.2 arg s
    have h := (lasts_resetPresence s.env 0).append lasts_skipRomConvertT
    exact h.duration he (by simpa using htr) (by omega) (by omega) (by omega)
  · obtain ⟨t, he, -, -, -, -, -, -, -, -, -, -, htr, hnow, hc, hc', -⟩ :=
      getTemperatureReadsAndDecodes.2 arg s _ _ _ rfl rfl rfl
    have h (k m n : Nat) := ((lasts_resetPresence s.env 0).append lasts_skipRomConvertT).append
      (((lasts_resetPresence s.env k).append lasts_skipRomReadScratchpad).append
        ((lasts_readByteTrace s.env m).append (lasts_readByteTrace s.env n)))
    exact (h _ _ _).duration he (by simpa using htr) (by omega) (by omega) (by omega)

end Sys2Proof
end
